-- ==== Sys2Proof/Word.lean ====
section
/-! DEFINITION. The word types of the GS512 and their plainest arithmetic. -/

namespace Sys2Proof

/-- A register word of a page (R27). -/
abbrev Word := BitVec 32

/-- A 64-bit register, and system time in ticks (R5). -/
abbrev Time := BitVec 64

/-- One byte of DRAM or of the boot flash. -/
abbrev Byte := BitVec 8

/-- A global channel number, 32 × bay + channel (R8). -/
abbrev ChanNo := Fin 512

/-- A bay number (R8). -/
abbrev BayNo := Fin 16

/-- The global channel number of channel `c` of bay `b` (R8). -/
def chanOf (b : BayNo) (c : Fin 32) : ChanNo := ⟨32 * b.val + c.val, by omega⟩

/-- The bay of a global channel (R8). -/
def bayOf (g : ChanNo) : BayNo := ⟨g.val / 32, by omega⟩

/-- The channel's number within its bay (R8). -/
def inBay (g : ChanNo) : Fin 32 := ⟨g.val % 32, Nat.mod_lt _ (by decide)⟩

end Sys2Proof
end

