-- ==== Sys2Proof/Syntax.lean ====
section
/-! DEFINITION. The commands: one constructor per row of spec/opcode_table.json, in the table's order, with
the operands that the row's step takes from outside the state. -/

namespace Sys2Proof

/-- A register page (R26, R34, R287, R305, R381, R424). -/
inductive Page where
  | device
  | faultLog (i : Fin 2)
  | transom
  | line (q : Fin 4)
  | archive
  | folio (q : Fin 8)
  | stk
  | host
  | dma (i : Fin 2)
  | msix
  | ndolek
  | lintel
  | accession
  | bay (b : BayNo)
  | catalogue (b : BayNo)
  | sash (b : BayNo)
  | shelf (b : BayNo)
  | channel (g : ChanNo)
deriving DecidableEq, Repr

/-- How a step reached its block: by a register write of the host, or by a Transom task activation that
carries a cascade depth (R274, R280). -/
inductive Via where
  | write
  | task (depth : Nat)
deriving DecidableEq, Repr

/-- The two windows of a channel (R193). -/
inductive Win where
  | v
  | i
deriving DecidableEq, Repr

/-- The two monitor converters of a bay (R225). -/
inductive Conv where
  | a
  | b
deriving DecidableEq, Repr

/-- What a list fetch found (R112): no parity error, one that the re-read cured, or one that persisted. -/
inductive Parity where
  | ok
  | transient
  | lasting
deriving DecidableEq, Repr

/-- A Ndolek port (R401). -/
inductive Port where
  | up
  | down
deriving DecidableEq, Repr

/-- The six Stacks ports P0 to P5 (R356). -/
abbrev StkPort := Fin 6

/-- The boundary at which a position becomes visible (R289): into the core or into the timebase. -/
inductive Side where
  | core
  | timebase
deriving DecidableEq, Repr

/-- The device-wide monitored supplies (R439, R443). -/
inductive SupplyName where
  | vio
  | vcore
  | vddq
  | vana
deriving DecidableEq, Repr

/-- The kinds of correctable PCI Express error (HL_COR_ERR). -/
inductive CorKind where
  | receiver
  | badTlp
  | badDllp
  | replay
deriving DecidableEq, Repr

/-- The kinds of uncorrectable PCI Express error (HL_UNC_ERR, R422 code 0x72). -/
inductive UncKind where
  | timeout
  | poisoned
  | malformed
  | unexpected
deriving DecidableEq, Repr

/-- The fitted DIMM of a channel as its SPD hub reports it (R337, R338, R368). -/
structure Dimm where
  /-- A registered DIMM with the ECC width, rank structure and features of R337. -/
  registered : Bool
  eccWidth40 : Bool
  /-- Device width in bits, W. -/
  width : Nat
  /-- Device density in Gb, D. -/
  density : Nat
  packageRanks : Nat
  /-- Height of the 3DS stack, 1 for monolithic devices. -/
  stack : Nat
  /-- SPD manufacturer ID and module serial number (R368). -/
  identity : BitVec 48
deriving DecidableEq, Repr

/-- An error pattern of one returned codeword (R344): the symbols in error, each with its position (the
exponent 0 to 35) and the value exclusive-ored onto it. -/
abbrev SymErrs := List (Nat × Byte)

/-- The error pattern of one returned line (R345): two codewords, the tag bits and its check byte. -/
structure LineErr where
  cw0 : SymErrs
  cw1 : SymErrs
  tag : BitVec 56
  h : Byte
deriving DecidableEq, Repr

/-- What asks Stacks for a request (R356, R365). -/
inductive Requester where
  | archive (folio : Nat)
  | codex (g : ChanNo)
  | bar2
  | dma (q : Fin 16)
  | trace (b : BayNo)
  | scrub
  | reRead
  | tagRead
deriving DecidableEq, Repr

/-- A request at a Stacks port (R357): one line, and for a write the bytes with their enables, the tag of a
P0 write and the errors that the ledger word picked up on its way (R348). -/
structure StkReq where
  line : Nat
  from_ : Requester
  write : Bool
  /-- (offset in the line, byte) for each byte written. -/
  bytes : List (Nat × Byte)
  tag : BitVec 56
  err0 : SymErrs
  err1 : SymErrs
  /-- The words that arrive with the poison mark (R347, R386). -/
  poison0 : Bool
  poison1 : Bool
deriving DecidableEq, Repr

/-- The errors that a read of a line ends with, and those of its re-reads in turn (R351, R352). -/
abbrev ReadErrs := LineErr × List LineErr

/-- The errors of the reads of DRAM that an access makes, by line of the access: those of the read and of its re-reads
(R344, R351, R352). -/
abbrev LineReads := List (Nat × ReadErrs)

/-- A BAR2 request (R382, R386): a read of `len` bytes, with the errors that ledger words pick up on their way out
(R384), by block of the access; or a write of bytes with their enables and the EP bit. Both with the errors of the reads
of DRAM that they make. -/
inductive Bar2Op where
  | read (len : Nat) (egress : List (Nat × SymErrs)) (dram : LineReads)
  | write (bytes : List (Option Byte)) (poisoned : Bool) (dram : LineReads)
deriving DecidableEq, Repr

/-- A DMA descriptor as the host wrote it in its ring (R387). -/
structure Descriptor where
  hostAddr : BitVec 64
  devAddr : BitVec 64
  length : BitVec 32
  ctrl : BitVec 32
deriving DecidableEq, Repr

/-- What host memory answered to an H2D descriptor's reads (R386, R387, R389): the bytes, the parts that arrived
in completions with EP set (offset and length), and after how many bytes a read failed, if one did. -/
structure HostData where
  bytes : List Byte
  poisoned : List (Nat × Nat)
  failedAt : Option Nat
  /-- D2H: the errors that ledger words pick up on their way out (R384), by block of the access. -/
  egress : List (Nat × SymErrs)
  /-- The errors of the reads of DRAM. -/
  dram : LineReads
  /-- The queue has one turn of at most 4,096 bytes (R390), and the descriptor goes on where that does not finish it. -/
  turn : Bool
deriving DecidableEq, Repr

/-- MSI-X Enable and Function Mask (R394). -/
structure MsixCtl where
  en : Bool
  mask : Bool
deriving DecidableEq, Repr

/-- A bay whose force rails leave their range, with the monitor's readings of them in mV (R213, R255, R443). -/
structure RailLoss where
  bay : BayNo
  vfpMv : BitVec 16
  vfnMv : BitVec 16
deriving DecidableEq, Repr

/-- What the host sets in the configuration space beside Bus Master Enable and the MSI-X controls (R378, R380): Memory
Space Enable, the bases of BAR0 and BAR2, Max Payload Size and Max Read Request Size as the standard codes them, 10-bit
tags, the Completion Timeout range and disable, ECRC generation and checking, and D3hot. -/
structure CfgCtl where
  memSpace : Bool
  bar0 : BitVec 64
  bar2 : BitVec 64
  maxPayload : BitVec 3
  maxRead : BitVec 3
  tag10 : Bool
  cplTimeout : BitVec 4
  cplTimeoutOff : Bool
  ecrcGen : Bool
  ecrcCheck : Bool
  d3hot : Bool
deriving DecidableEq, Repr

/-- One trigger entry of a Ndolek frame (R405). -/
structure TrigEntry where
  e : BitVec 28
  merged : Bool
  rise : Bool
  state : Bool
deriving DecidableEq, Repr

/-- The fields of a Ndolek frame (R404). -/
structure Frame where
  fseq : BitVec 8
  nseq : BitVec 8
  nack : Bool
  /-- LAG downstream, PMAX upstream. -/
  lag : BitVec 16
  hop : BitVec 6
  frameTick : Time
  trig : Vector TrigEntry 8
  msg : Option (Vector Word 4)
  /-- ECHO downstream, PROBE upstream. -/
  echo : BitVec 32
  turn : BitVec 32
  p : BitVec 32
deriving DecidableEq, Repr

/-- What one calibration step measured (R242, R251). -/
inductive CalStep where
  | vLane (gain : BitVec 24) (ofs : BitVec 16)
  | dac (span : Fin 5) (gain : BitVec 24) (ofs : BitVec 16)
  | iLane (span : Fin 5) (gain : BitVec 24) (ofs : BitVec 16)
  /-- Range resistance of spans A to D over that of span E, divided by its nominal, as Q2.22. -/
  | ratio (span : Fin 4) (q : BitVec 24)
  | drive (gain : BitVec 24) (ofs : BitVec 16)
  | iSense (irange : Fin 2) (gain : BitVec 24) (ofs : BitVec 16)
  | vSense (gain : BitVec 24) (ofs : BitVec 16)
  | skew (units : BitVec 16)
deriving DecidableEq, Repr

/-- The straps sampled at device power-up (R468). -/
structure Straps where
  root : Bool
  ref100 : Bool
  chain : BitVec 5
deriving DecidableEq, Repr

/-- What flash discovery found (R450): the parameters of a flash with an SFDP signature. -/
structure FlashParams where
  /-- log2 of the capacity in bytes. -/
  size : Nat
  /-- Read mode code of the fastest advertised mode, 1 to 5 (DEV_BOOT.MODE). -/
  fastest : Nat
  /-- The least DIV of 200 MHz ÷ DIV that the flash's advertised maximum permits. -/
  minDiv : Nat
  pageSize : Nat
  /-- Erase sizes in bytes of erase types 1 to 4, 0 where a type is absent. -/
  erase : Vector Nat 4
deriving DecidableEq, Repr

/-- The commands (spec/opcode_table.json). -/
inductive Instr where
  | registerWrite (addr : BitVec 24) (words : List Word) (full : Bool)
  | readLowWord (p : Page) (off : BitVec 12)
  | readHighWord (p : Page) (off : BitVec 12)
  | read64 (p : Page) (off : BitVec 12)
  | writeLowWord (p : Page) (off : BitVec 12) (w : Word)
  | writeHighWord (p : Page) (off : BitVec 12) (w : Word)
  | commitGo (p : Page)
  | commitCheckEnd (p : Page) (draftFault : Bool)
  | discard (p : Page)
  | commitTask (p : Page) (depth : Nat)
  | evtClear (p : Page) (mask : Word)
  | evtEnWrite (p : Page) (w : Word)
  | evtVecWrite (p : Page) (w : Word)
  | speedWindowEnd (b : BayNo) (cycles : BitVec 16)
  | rearm (b : BayNo)
  | fastSample (g : ChanNo) (rawV rawI : BitVec 18)
  | dacUpdate (g : ChanNo) (late : Bool)
  | sashFrame (b : BayNo)
  | sashComputation (b : BayNo)
  | graceEnd (g : ChanNo)
  | loopFreeze (g : ChanNo) (depth : Nat)
  | loopResume (g : ChanNo) (depth : Nat)
  | modeChange (g : ChanNo)
  | loopReset (g : ChanNo)
  | release (g : ChanNo)
  | traceArm (b : BayNo) (via : Via)
  | traceStop (b : BayNo) (via : Via)
  | traceHalfWritten (b : BayNo)
  | traceDataRead (b : BayNo) (wide : Bool)
  | shutOpen (g : ChanNo) (via : Via)
  | openTaken (g : ChanNo)
  | firstOpenSwitchOn (g : ChanNo)
  | switchOnComplete (g : ChanNo)
  | shutClose (g : ChanNo)
  | taskShutterClose (g : ChanNo) (depth : Nat)
  | switchOffComplete (g : ChanNo)
  | vanaOutOfRange
  | vanaInRange
  | railOutOfRange (r : RailLoss)
  | railInRange (b : BayNo)
  | changeSpan (g : ChanNo) (depth : Nat)
  | spanMake (g : ChanNo)
  | spanScaleSwitch (g : ChanNo)
  | spanBreak (g : ChanNo)
  | slewStep (g : ChanNo)
  | progStart (g : ChanNo) (via : Via) (parity ahead : Parity)
  | progStop (g : ChanNo) (via : Via)
  | progAdvance (g : ChanNo) (via : Via) (ahead : Parity)
  | progPrime (g : ChanNo) (via : Via)
  | primeDone (g : ChanNo)
  | listDataWrite (b : BayNo) (entry : BitVec 64)
  | dwellEnd (g : ChanNo) (ahead : Parity)
  | codexPoint (g : ChanNo)
  | codexFetchDone (g : ChanNo) (points : Nat)
  | leadingEdge (g : ChanNo)
  | trailingEdge (g : ChanNo)
  | lvTripClear (g : ChanNo)
  | precisionBoundary (g : ChanNo)
  | resultCapture (g : ChanNo) (via : Via)
  | laneChange (g : ChanNo)
  | inputChange (g : ChanNo)
  | windowCrossing (g : ChanNo) (w : Win) (level : Int)
  | tripTimeRecord (g : ChanNo) (w : Win)
  | sampledDecision (g : ChanNo) (levelV levelI : Int)
  | cmpClear (g : ChanNo) (clrV clrI : Bool)
  | blankingEnd (g : ChanNo) (w : Win)
  | lintelPeriod (rails : Vector (BitVec 16 × BitVec 16) 16)
  | lintelEvalDone
  | lintelLimitsApply
  | catSlotEnd (b : BayNo) (k : Conv) (raw : BitVec 16)
  | catResultPost (b : BayNo)
  | inject (b : BayNo) (k : Conv) (via : Via)
  | xchkReset (b : BayNo)
  | calibrate (via : Via)
  | batchBegin (b : BayNo) (refMicrovolts : Int)
  | calHoldStart (g : ChanNo)
  | calStepDone (g : ChanNo) (step : CalStep)
  | calRelease (g : ChanNo)
  | calHoldEnd (g : ChanNo)
  | store
  | storeComplete (readBackOk : Bool)
  | load
  | abort
  | journalLoad
  | loadDone
  | transomEntry
  | transomHop (parity : List (ChanNo × Parity × Parity))
  | delayExpiry (line : Fin 256)
  | trFire (line : Fin 256)
  | trFireGrp (k : Fin 8) (lines : Word)
  | timerStart (k : Fin 16) (via : Via)
  | timerStop (k : Fin 16) (via : Via)
  | timerExpiry (k : Fin 16)
  | shelfWrite (b : BayNo)
  | positionVisible (b : BayNo) (side : Side)
  | shfDataRead (b : BayNo) (words : Nat)
  | shelfTimeout (b : BayNo)
  | flush (b : BayNo)
  | flushPoint (b : BayNo)
  | arm (f : Fin 64) (via : Via)
  | folioStop (f : Fin 64) (via : Via)
  | trig (f : Fin 64) (via : Via)
  | folioReady (f : Fin 64)
  | triggerJudge (f : Fin 64) (sample : Nat)
  | folioComplete (f : Fin 64)
  | folioEndedEarly (f : Fin 64) (cause : Fin 6)
  | folioFlushed (f : Fin 64)
  | stagingWord (g : ChanNo) (prec : Bool)
  | tagRead
  | tagDone (errs : ReadErrs)
  | requestEnter (port : StkPort) (req : StkReq)
  | requestIssue (sub : Fin 16) (busy : List Nat)
  | promoted (sub : Fin 16)
  | readReturn (sub : Fin 16) (first : LineErr) (again : List LineErr)
  | scrubRead
  | scrubRestart
  | refresh (sub : Fin 16)
  | thermalRead (chan : Fin 8) (quarters : BitVec 12)
  | srefEnter
  | srefExit
  | srefExitDone (failed : BitVec 16)
  | reinit (dimms : Vector (Option Dimm) 8)
  | trainingDone (sub : Fin 16) (passed : Bool)
  | zeroingDone
  | retrain (sub : Fin 16) (found : Bool)
  | retrainRetry (sub : Fin 16) (found : Bool)
  | fence (mask : BitVec 16)
  | tcStore
  | tcStoreDone (failures : Nat)
  | rateChangeStart
  | rateDone
  | bar2Access (offset : BitVec 36) (op : Bar2Op)
  | bar2BaseWrite (w : Word)
  | doorbell (q : Fin 16) (w : Word)
  | descriptorComplete (q : Fin 16) (entry : List Byte) (data : HostData)
  | shelfDescTimeout (q : Fin 16)
  | dmaStop (q : Fin 16)
  | resume (q : Fin 16)
  | busMasterEnableChange (on : Bool) (msix : MsixCtl) (ctl : CfgCtl)
  | msixUnmask (v : Fin 64)
  | corErr (k : CorKind)
  | uncErr (k : UncKind)
  | linkDown
  | flr
  | linkUp (rate : BitVec 4) (width : BitVec 6)
  | perstRelease
  | frameSend (port : Port)
  | frameReceive (port : Port) (body : List Byte) (crc : Word) (arrival : BitVec 26) (frac : BitVec 6)
  | superPeriod
  | ndkLoad
  | linkLost (port : Port)
  | portLinkUp (port : Port)
  | driveLine (l : Fin 8) (depth : Nat)
  | driveEnd (l : Fin 8)
  | lineEdgeRaise (l : Fin 8)
  | send
  | msgRxRead
  | faultLogEntry
  | fltAckWrite (w : Word)
  | fltRearm
  | bayReset (b : BayNo)
  | coreReset
  | memoryReset
  | dmaReset
  | resetDone
  | devicePowerUp (straps : Straps) (flash : Option FlashParams)
  | powerUpReset
  | supply (k : SupplyName)
  | timebaseLock
  | pdCtlWrite (w : Word)
  | pdSwitchOnStart
  | pdDone
  | pdSwitchOffStart
  | pdPowerOpen
  | pdSwitchOffDone
  | bootRecordRead
  | preloadEntry
  | flashRead
  | flashProgram
  | flashErase
  | flDone (failed : Bool)
  | triggerPinEdge (k : Fin 4) (rising : Bool) (sub : Fin 16)
  | registerRead (addr : BitVec 24) (words : Nat) (full : Bool)
  | supplyInRange (k : SupplyName)
  | linkRateOrWidthChange (rate : BitVec 4) (width : BitVec 6)
deriving DecidableEq, Repr

end Sys2Proof
end

