-- ==== Sys2Proof/Decode.lean ====
section
/-! DEFINITION. The commands that a word spells by the bits of spec/opcode_table.json. -/

namespace Sys2Proof

/-- The command of a table word. No row of the table gives bits: a command of this block is an access, an event or an
operation, not a word, so no word spells one. (DESIGN CHOICE: log entry 5) -/
def decodeTableWord (_nbits _w : Nat) : Option Instr := none

end Sys2Proof
end

