-- ==== Sys2Proof/Config.lean ====
section
/-! DEFINITION. What one part fixes and the spec leaves open. Every constant here is opaque: it has no
body, so nothing can be proved of its value. -/

namespace Sys2Proof

/-- DEV_UID, unique per die (R34 page tables, DEV_UID): the spec gives no value. (DESIGN CHOICE: log entry 10) -/
opaque Config.uid : BitVec 64

/-- DEV_PART.GRADE, 1 for GS512-C and 2 for GS512-E, per part (R1, DEV_PART). (DESIGN CHOICE: log entry 10) -/
opaque Config.gradeIsE : Bool

/-- The free values: the n-th value that the spec leaves open in a run. The step applies it to the plain counter
`State.free`. (DESIGN CHOICE: log entry 11) -/
opaque Config.freeValue : Nat → BitVec 64

/-- Ticks between all-bank refreshes up to 85 °C: JESD79-5 fixes the interval, and the spec does not repeat it (R363).
(DESIGN CHOICE: log entry 90) -/
opaque Config.refreshTicks : Nat

end Sys2Proof
end

