-- ==== Sys2Proof/Machine/State.lean ====
section
/-! DEFINITION. The state of a GS512: every register, queue, memory, mode and timer that the spec names, as
plain data, and the queue of waiting commands. -/

namespace Sys2Proof.Machine

/-- Why a command stops the machine.
`illFormed` is raised by the commands with a list operand (a TLP, a BAR2 write) when the list can be no
transfer on the link; safe, since no host request has that form (R378, R382). -/
inductive Fault where
  | illFormed
deriving DecidableEq, Repr

/-- Why a command is refused. `notModelled` is raised only by an arm of `exec` whose command has no meaning
yet; safe. -/
inductive Refusal where
  | notModelled (mnemonic : String)
deriving DecidableEq, Repr

/-! ## Pages (chapter 2) -/

/-- Register words by byte offset, in rising offset, holding only words that differ from the reset word of
their offset. -/
abbrev RegStore := List (Nat × Word)

/-- Shadow, armed flag and held low word of one 64-bit register (R54 to R58). -/
structure PairSt where
  off : Nat
  shadow : Word
  armed : Bool
  held : Option Word
deriving DecidableEq, Repr

/-- The header of a page and its RWD fields (R31, R36 to R49). -/
structure PageHdr where
  view : Bool
  taskApply : Bool
  evt : Word
  evtEn : Word
  vec : BitVec 6
  /-- The event bits that hardware set in tick `setTick` (R51). -/
  setTick : Nat
  setBits : Word
  clampCount : BitVec 16
  clampList : List (BitVec 16)
  clampSeq : BitVec 8
  seq : BitVec 8
  aborted : Bool
  pending : Bool
  discardHeld : Bool
  commitTime : Time
  pairs : List PairSt
  draft : RegStore
  live : RegStore
  /-- The drafts captured by the check in progress (R36); BUSY reads 1 while there are some. -/
  captured : Option RegStore
  /-- The checked values awaiting the commit task input (R46); STAGED reads 1 while there are some. -/
  staged : Option RegStore
deriving DecidableEq, Repr

/-! ## Channels (chapters 3 to 7) -/

/-- The Native spans (R10). -/
inductive Span where
  | a
  | b
  | c
  | d
  | e
deriving DecidableEq, Repr

/-- A gain and offset pair of Accession (R63, R169). -/
structure Pair where
  gain : BitVec 24
  ofs : BitVec 16
deriving DecidableEq, Repr

/-- The coefficients of one channel (R242, R263). -/
structure Coefs where
  dac : Vector Pair 5
  drive : Pair
  mv : Pair
  bvs : Pair
  mi : Vector Pair 5
  bis : Vector Pair 2
  skew : BitVec 16
  loaded : Bool
deriving DecidableEq, Repr

/-- The switch of a shutter: off; turning on since a tick (R85, R89); on; turning off for a tick-path source
asserted at a tick (R81); turned off asynchronously and not yet registered; turned off asynchronously and
registered at a tick (R82). -/
inductive Switch where
  | off
  | turningOn (t : Nat)
  | on
  | closing (t : Nat)
  | tripped (t : Nat) (cause : Nat)
  | tripClosing (t : Nat)
deriving DecidableEq, Repr

/-- A first opening in progress (R89): its tick 0, its loop period and whether a span change runs. -/
structure FirstOpening where
  t0 : Nat
  period : Nat
  spanChange : Bool
deriving DecidableEq, Repr

/-- A span change in progress (R69). -/
structure SpanChange where
  old : Span
  new : Span
  /-- The span field selected at the make. -/
  sel : Bool
  make : Nat
  period : Nat
  scaled : Bool
deriving DecidableEq, Repr

/-- A span request that awaits its boundary (R69, R70): its first and last tick, and whether it was held. -/
structure SpanReq where
  first : Nat
  last : Nat
  held : Bool
deriving DecidableEq, Repr

/-- The force path of a channel (chapter 3). -/
structure Force where
  switch : Switch
  fixed : Bool
  /-- Tick of the open request that awaits its boundary (R85). -/
  openReq : Option Nat
  /-- Tick and cause of the last close source that asserted (R22, R24). -/
  closeTick : Option (Nat × Nat)
  firstOpen : Option FirstOpening
  closeCause : BitVec 4
  /-- The cause before the closing that registers one tick after the present one (R81, R83). -/
  causeWas : BitVec 4
  refuseCause : BitVec 4
  spanLive : Span
  sel : Bool
  /-- The span field whose clamp pair and gain set apply (R149). -/
  selUse : Bool
  spanReq : Option SpanReq
  spanChange : Option SpanChange
  /-- Tick of the last change-span activation (R68). -/
  toggleTick : Option Nat
  changes : BitVec 16
  superseded : BitVec 16
  boostLive : Bool
  /-- Commits of BOOST whose inputs and output are still to change, with their ticks, oldest first (R73, R167). -/
  boostReq : List (Nat × Bool)
  dacCode : BitVec 20
  /-- Tick at which the DAC last took a code (R60). -/
  dacTaken : Option Nat
  codeLim : Bool
  setptLim : Bool
  /-- The setpoint code that the limiter last took, before R62. -/
  setpt : BitVec 20
  /-- Tick of the last commit that changed BOOST (R80). -/
  boostAt : Option Nat
deriving DecidableEq, Repr

/-- The slew limiter (R92 to R95). `next` is the next step tick, none at rest. -/
structure Slew where
  out : BitVec 20
  target : BitVec 20
  next : Option Nat
  last : Nat
  /-- Tick of the last SLEW_STEP, with the output, the next step tick and the last one before it: what changes in that
  tick acts before the step (R93). -/
  undo : Option (Nat × BitVec 20 × Option Nat × Nat)
deriving DecidableEq, Repr

/-- Points of a Codex table in the channel's cache (R117), in playing order: index and value, `none` for poison. -/
abbrev CdxWindow := List (Nat × Option Word)

/-- A channel's programs (chapter 4). -/
structure Prog where
  running : Bool
  done : Bool
  ready : Bool
  fault : Bool
  /-- The value that each source presents (R99). -/
  swpVal : BitVec 20
  cdxVal : BitVec 20
  /-- The sweep list, and the Codex table, has been started since its reset (R99). -/
  swpStarted : Bool
  cdxStarted : Bool
  lvHigh : Bool
  /-- Tick of the last start, and of the last stop (R103). -/
  startTick : Option Nat
  stopTick : Option Nat
  -- sweep list
  index : BitVec 12
  pass : BitVec 16
  cur : BitVec 64
  /-- The entry fetched ahead: its index, its content, and whether its parity error persisted (R111, R112). -/
  next : Option (Nat × BitVec 64 × Bool)
  dwellAt : Option Nat
  /-- Tick at which a dwell last ended an entry (R109). -/
  dwellEnded : Option Nat
  -- Codex
  point : Nat
  passes : Nat
  /-- Tick at which the next point becomes current. -/
  pointAt : Option Nat
  window : CdxWindow
  /-- The points that the last priming loaded. -/
  primed : CdxWindow
  priming : Bool
  misses : Word
  -- Louvre
  pulses : BitVec 24
  /-- Tick of the next edge of the running Louvre. -/
  leadAt : Option Nat
  trailAt : Option Nat
  tripped : Bool
  /-- The trip is resynchronised, so that TRIP_ACT 1 and 3 replace the pulse level (R124). -/
  tripBase : Bool
  tripTick : Option Nat
  trips : BitVec 16
  /-- Tick of the last clear of the trip latch, with tripBase and tripTick before it (R125). -/
  lvClear : Option (Nat × Bool × Option Nat)
deriving DecidableEq, Repr

/-- The loop modes (R135). -/
inductive Mode where
  | idle
  | fv
  | fi
  | measure
deriving DecidableEq, Repr

/-- The loop states (R141). -/
inductive LoopState where
  | idle
  | parked
  | run
  | grace
  | held
  | measure
  | frozen
deriving DecidableEq, Repr

/-- The state of one sash (R133, R134, R150). -/
structure SashSt where
  ist : Int
  dst : Int
  eprev : Int
  limhi : Bool
  limlo : Bool
  /-- The output shift to which ist and dst belong (R150). -/
  os : Nat
  /-- The next computation is the first in RUN (R143). -/
  fresh : Bool
deriving DecidableEq, Repr

/-- A feedback loss under judgement (R154): its cause, and the tick at which its grace ends once it runs. -/
structure Grace where
  openSense : Bool
  /-- GRACE in µs as the grace began. -/
  micros : Nat
  endAt : Option Nat
deriving DecidableEq, Repr

/-- The block statistics of the frozen-feedback detector (R153). -/
structure FrzBlock where
  n : Nat
  fbMin : Nat
  fbMax : Nat
  preMin : Nat
  preMax : Nat
deriving DecidableEq, Repr

/-- The loop of a channel (chapter 5). -/
structure Loop where
  mode : Mode
  rate : Nat
  div : Nat
  /-- Commits whose MODE, RATE and DIV are still to take effect, with their ticks, oldest first (R145). -/
  modeReq : List (Nat × Mode × Nat × Nat)
  lower : SashSt
  upper : SashSt
  vsp : BitVec 20
  corr : BitVec 20
  /-- Limiter output at the boundary of the frame in progress (R95). -/
  ff : BitVec 20
  active : BitVec 2
  vclamp : Bool
  esat : Bool
  osat : Bool
  cause : BitVec 2
  freeze : Bool
  /-- Ticks of the freeze (true) and resume activations still to take effect, oldest first (R144). -/
  freezeReq : List (Nat × Bool)
  held : Bool
  grace : Option Grace
  releaseReq : Option Nat
  resetReq : Option Nat
  openCnt : Nat
  frz : FrzBlock
  /-- State at the last frame boundary (R128, R143, R152). -/
  lastState : LoopState
  /-- Tick from which SHUT last read 0 after a closing, until a frame boundary has taken it (R143). -/
  leftRun : Option Nat
  /-- The old and new span of a rescaling still to be carried out (R149): of the sashes, and of the limiter
  output. -/
  rescale : Option (Span × Span)
  rescaleOut : Option (Span × Span)
  /-- The Lintel limit at the boundary of the frame in progress (R216). -/
  lin : BitVec 16
  transient : BitVec 16
  lost : BitVec 16
  overruns : Word
deriving DecidableEq, Repr

/-- A sample that is converted and not yet corrected (R168), with the conditions of its instant. -/
structure Inflight where
  tick : Nat
  time : Time
  rawV : BitVec 18
  rawI : BitVec 18
  pairV : Pair
  pairI : Pair
  uncal : Bool
  span : Span
  boost : Bool
  flane : Bool
  plane : Bool
  spanChg : Bool
  /-- The first sample of new inputs (R167). -/
  inputChg : Bool
  closed : Bool
  cal : Bool
deriving DecidableEq, Repr

/-- The boxcars of one frame (R176): sums, number of samples, OVR flags. -/
structure Box where
  v : Nat
  i : Nat
  ovrV : Bool
  ovrI : Bool
  n : Nat
  /-- Span and inputs of the frame, for R212. -/
  span : Span
  boost : Bool
deriving DecidableEq, Repr

/-- The flags gathered over the samples of a period (R181). -/
structure LaneFlags where
  ovr : Bool
  clip : Bool
  spanChg : Bool
  /-- New inputs begin at the period's first sample, or at a later one. -/
  inputFirst : Bool
  inputInner : Bool
  closed : Bool
  cal : Bool
  uncal : Bool
deriving DecidableEq, Repr

/-- The accumulators of one lane over one precision period (R178). -/
structure LaneAcc where
  a : Nat
  w : Nat
  flags : LaneFlags
deriving DecidableEq, Repr

/-- A window that has closed and whose values are still to form (R179): its tick B, its last sample's system
time, its N, and the two periods of both lanes. -/
structure PrecWin where
  tick : Nat
  last : Time
  n : Nat
  /-- Lane of the precision stream at the last sample. -/
  plane : Bool
  /-- A result item that the boundary sends (R186): CAPT and LANES. -/
  item : Option (Bool × Nat)
  v0 : LaneAcc
  v1 : LaneAcc
  i0 : LaneAcc
  i1 : LaneAcc
deriving DecidableEq, Repr

/-- The precision filter of a channel (R177 to R180). -/
structure Prec where
  pdec : Nat
  running : Bool
  /-- System time of the restart boundary that is still to come, and the new PDEC (R180). -/
  restart : Option (Time × Nat)
  nowV : LaneAcc
  nowI : LaneAcc
  prev : Option (LaneAcc × LaneAcc)
  closed : Option PrecWin
deriving DecidableEq, Repr

/-- The measure path of a channel (chapter 6). -/
structure Meas where
  inflight : Option Inflight
  pairV : Pair
  pairI : Pair
  uncal : Bool
  fastV : BitVec 16
  fastI : BitVec 16
  ovrV : Bool
  ovrI : Bool
  clipV : Bool
  clipI : Bool
  flane : Bool
  plane : Bool
  /-- Commits whose FSEL and PSEL are still to take effect, with their ticks, oldest first (R175). -/
  laneReq : List (Nat × Bool × Bool)
  box : Box
  /-- The boxcars that the engine has taken, newest first: at most 8,192, as many as R132 needs. -/
  boxes : List Box
  /-- The boxcars formed, newest first: the 16 of a Lintel window (R211). -/
  linBoxes : List Box
  prec : Prec
  pv : BitVec 64
  pi : BitVec 64
  pvalid : Bool
  ovrCntV : BitVec 16
  ovrCntI : BitVec 16
  scaleTime : Time
  /-- Tick at which a change of inputs last took effect (R167). -/
  inputAt : Option Nat
  /-- The last corrected value of the I lane (R71). -/
  corrI : Nat
  /-- The last fast code of the fast stream (R174). -/
  lastWord : Option (BitVec 16)
deriving DecidableEq, Repr

/-- The result items of a channel (R186 to R190). -/
structure Res where
  seq : BitVec 8
  /-- The next item is the first since MODE left 0. -/
  fresh : Bool
  capture : Option Nat
  merged : BitVec 16
deriving DecidableEq, Repr

/-- The raw state of a window, and its latch with `inside` for not tripped (R195, R197). -/
inductive Raw where
  | inside
  | above
  | below
deriving DecidableEq, Repr

/-- One window of a channel (chapter 7). -/
structure Window where
  raw : Raw
  latch : Raw
  mirror : Raw
  /-- Blanked at every tick before this one (R202). -/
  blankUntil : Nat
  /-- A blanking that ends at `blankUntil` is still to be judged (R203). -/
  blankPend : Bool
  /-- Tick at which the raw state last left inside (R200). -/
  leftAt : Option Nat
  /-- Ticks at which the latch set and was not yet resynchronised, oldest first, and whether STEST was not 0 (R198,
  R208). -/
  setAt : List (Nat × Bool)
  /-- Tick of the last clear carried out (R200). -/
  clearedAt : Option Nat
  count : BitVec 16
  time : Time
  mismRun : Nat
  mismOn : Bool
  mism : BitVec 16
deriving DecidableEq, Repr

/-- A quantity that fails in a step that is being repeated (R252): its step's kind and index, its place among the
step's quantities, its code, the repeats carried out since it failed, and whether the last of them has failed. -/
structure QtyTry where
  step : Nat × Nat
  place : Nat
  code : Nat
  count : Nat
  spent : Bool
deriving DecidableEq, Repr

/-- A hold of a channel by Accession (R247). -/
structure CalHold where
  /-- The frame boundary F once the hold has begun, and the tick of R once it is released. -/
  heldAt : Option Nat
  releasedAt : Option Nat
  batchAt : Nat
  /-- New pairs measured so far. -/
  new : Coefs
  /-- Steps that have ended, by kind and index. -/
  ended : List (Nat × Nat)
  /-- The first failure in the order of R251: code, span field, failing value. -/
  failed : Option (Nat × Nat × Word)
  /-- Quantities that have failed in steps that have not ended (R252). -/
  repeats : List QtyTry
  retried : Bool
  aborted : Bool
deriving DecidableEq, Repr

/-- A raised source on its way to its lines (R278, R280): its SID, the tick of the raise, the tick at which it
enters, and the depth of the activation that raised it, if one did. -/
structure RaisedSrc where
  sid : BitVec 16
  tick : Nat
  enterAt : Nat
  depth : Option Nat
deriving DecidableEq, Repr

/-- What a start, stop or advance can change in a channel, its page header and the lists of the tick, by their lengths
(R103): the model's own. -/
structure ProgMark where
  prog : Prog
  slew : Slew
  setptLim : Bool
  setpt : BitVec 20
  winV : Window
  winI : Window
  evt : Word
  raised : Nat
  detected : Nat
  msgs : Nat
  /-- The page's MSI-X vector is pending. -/
  pend : Bool
deriving DecidableEq, Repr

/-- A word of a staging queue (R325): its folio and recording, kind, value index and value. -/
structure StgWord where
  folio : Fin 64
  epoch : Nat
  kind : Fin 5
  index : Nat
  value : Word
deriving DecidableEq, Repr

/-- A channel (chapters 3 to 8). -/
structure Chan where
  force : Force
  slew : Slew
  prog : Prog
  /-- The limiter without the rescaling of its output that this frame's computation is still to confirm, and that
  rescaling (R149). -/
  slewAlt : Option (Slew × Span × Span)
  /-- The marks before the first, and after the last, start or advance of a tick (R103): the model's own. -/
  progSnap : Option (Nat × ProgMark × ProgMark)
  loop : Loop
  meas : Meas
  res : Res
  winV : Window
  winI : Window
  /-- The coefficients in force in the channel, and whether new ones await a frame boundary (R171, R269). -/
  coefs : Coefs
  coefLoad : Option Nat
  hold : Option CalHold
  /-- Lintel limit (R215), and the limit computed and still to take effect (R216). -/
  lintel : BitVec 16
  lintelNew : Option (BitVec 16)
  /-- Mean dissipation of the last window in µW (R212). -/
  power : Nat
  /-- Words in the two staging queues (R301, R325). -/
  stgFast : List StgWord
  stgPrec : List StgWord
deriving DecidableEq, Repr

/-! ## Bays -/

/-- A shelf queue (chapter 12). -/
structure ShelfQ where
  /-- The words that lie in slots, by position. -/
  slots : List (BitVec 12 × Word)
  w : BitVec 12
  o : BitVec 12
  rd : BitVec 12
  /-- The reader's late view of W and O, and the producer's late view of Rd (R289). -/
  wSeen : BitVec 12
  oSeen : BitVec 12
  rdSeen : BitVec 12
  /-- Changes of Rd on their way into the timebase, with their ticks, and whether a read made them. -/
  rdTrail : List (Nat × BitVec 12 × Bool)
  last : Word
  lossPend : Bool
  level : Bool
  /-- Tick at which the running timeout count restarted, none when stopped (R296). -/
  tmoFrom : Option Nat
  /-- A flush held by the producer; and, once the flush point is past, W and the O before it, until the reader sees the
  new O (R297). -/
  flushing : Bool
  flushTo : Option (BitVec 12 × BitVec 12)
  flushed : BitVec 12
  lost : Word
  under : Word
  written : Word
  /-- Words still to be written, in the order of R191, with the tick B of their boundary, their channel and whether each
  ends an item, and whether the last word written left an item open (R297). -/
  passWords : List (Nat × Fin 32 × Word × Bool)
  midItem : Bool
  /-- Words written in the present tick (R191). -/
  burstTick : Nat
  burst : Nat
deriving DecidableEq, Repr

/-- A margin trace (R157 to R161). -/
structure Trace where
  running : Bool
  armReq : Option Nat
  stopReq : Option Nat
  t0 : Time
  frame : Nat
  entries : List (BitVec 64)
  full : Bool
  wrapped : Bool
  /-- In mode 2: entries of the half being written to DRAM. -/
  spilling : List (BitVec 64)
  halves : Word
  lost : Word
  rdptr : BitVec 17
  mode : Nat
  decim : Nat
  slots : Vector Word 4
  /-- Entries of the running frame that still wait for a lower slot, by slot (R157). -/
  held : List (Fin 4 × BitVec 64)
deriving DecidableEq, Repr

/-- The Sash engine of a bay (R128 to R130). -/
structure SashEng where
  rotate : Fin 32
  /-- Channels due in the running frame and not yet reached, in order. -/
  todo : List (Fin 32)
  due : Nat
  reached : Nat
  lastRotate : Fin 32
  lastDue : BitVec 6
  lastDone : BitVec 6
  overruns : Word
  /-- Channels of the running frame that R423 treats as not reached. -/
  skipped : List (Fin 32)
  /-- The DAC-code queue: channel, code, tick at which the word was written (R18). -/
  dacq : List (Fin 32 × BitVec 20 × Nat)
  /-- The loop-feed queue: the boxcars that the engine has not yet taken (R16, R176). -/
  feed : List (Fin 32 × Box)
  /-- Channels that lost a loop-feed word since the engine last emptied the queue, and before that (R423). -/
  feedLost : List (Fin 32)
  noFeed : List (Fin 32)
  frameStart : Option Nat
  /-- System time of the running frame's first tick. -/
  frameTime : Time
  trace : Trace
deriving DecidableEq, Repr

/-- The slot of a Catalogue converter in progress (R225, R227). -/
structure CatSlot where
  entry : Fin 16
  start : Nat
  startTime : Time
  cfg : Word
  corr : Word
  /-- The sequence runs its shared entry (R231). -/
  shared : Bool
  inj : Bool
  retry : Bool
  precal : Bool
deriving DecidableEq, Repr

/-- A Catalogue result (CAT_RES). -/
structure CatRes where
  value : BitVec 16
  ovr : Bool
  clip : Bool
  inj : Bool
  precal : Bool
  retry : Bool
  entry : Fin 16
  conv : Conv
  time : BitVec 32
deriving DecidableEq, Repr

/-- One Catalogue converter (chapter 9). -/
structure CatConv where
  slot : Option CatSlot
  /-- The entry that the sequence ran last, none before its first (R226). -/
  last : Option (Fin 16)
  /-- Tick of the pending injection request, and of the pending start of a stopped sequence. -/
  injReq : Option Nat
  startReq : Option Nat
  retryReq : Option Nat
  /-- The present retry result, awaiting its partner. -/
  retryRes : Option CatRes
  /-- The latest shared result and the boundary tick of its slot. -/
  shared : Option (CatRes × Nat)
  injEntry : BitVec 4
  late : BitVec 16
  results : Vector (Option CatRes) 16
  injResult : Option CatRes
deriving DecidableEq, Repr

/-- The Catalogue of a bay. -/
structure Cat where
  a : CatConv
  b : CatConv
  /-- Accession has asked for B at a tick, and holds it (R238). -/
  holdReq : Option Nat
  held : Bool
  /-- Results on their way to the core (R230). -/
  queue : List CatRes
  retryPairs : Nat
  xfault : Bool
  pass : BitVec 16
  unpaired : BitVec 16
  transient : BitVec 16
  lasting : BitVec 16
  lastA : BitVec 16
  lastB : BitVec 16
deriving DecidableEq, Repr

/-- What a bay holds beside its channels (chapters 1, 4, 5, 9 and 12). -/
structure Bay where
  speed : BitVec 16
  speedValid : Bool
  speedMin : BitVec 16
  /-- System tick at which the running speed window began. -/
  speedFrom : Nat
  listPtr : Word
  /-- List memory by 4,096 × channel + entry, holding only entries that differ from their reset value. -/
  lists : List (Nat × BitVec 64)
  sash : SashEng
  shelf : ShelfQ
  cat : Cat
deriving DecidableEq, Repr

/-! ## Device-wide blocks -/

/-- An event on a line (R279): the line, its depth, and the tick at which it hops. -/
structure LineEvt where
  line : Fin 256
  depth : Nat
  hopAt : Nat
deriving DecidableEq, Repr

/-- A routing line (R275 to R277, TR_LN_STAT, TR_LN_CNT). -/
structure Line where
  count : Nat
  /-- The delayed event: the tick at which it is delivered, and its depth. -/
  delayed : Option (Nat × Nat)
  dlost : BitVec 8
  merged : BitVec 16
  events : Word
  loopFault : Bool
  /-- Tick and depth of the last event that the line took, for R283. -/
  lastIn : Option (Nat × Nat)
deriving DecidableEq, Repr

/-- A Transom timer (R285). -/
structure Timer where
  running : Bool
  nextAt : Nat
  period : Nat
  count : Nat
  expired : BitVec 16
  stopTick : Option Nat
deriving DecidableEq, Repr

/-- What has reached the lines in a tick (R277): an event of a source, or one fired into a line, and the depth that it
has there. -/
structure Offer where
  tick : Nat
  sid : BitVec 16
  line : Option (Fin 256)
  depth : Nat
deriving DecidableEq, Repr

/-- The Transom fabric (chapter 11). -/
structure Transom where
  raised : List RaisedSrc
  /-- Fired lines with the tick at which they enter (R281). -/
  fired : List (Fin 256 × Nat)
  events : List LineEvt
  /-- What has reached the lines in the present tick, and the tick of the last hops: the model's own. -/
  offers : List Offer
  hopTick : Option Nat
  lines : Vector Line 256
  timers : Vector Timer 16
  loopCnt : Word
  pdDrop : Word
  mrgSel : BitVec 16
  /-- Merge counters of the inputs that have merged, by TID. -/
  mrgCnt : List (Nat × BitVec 16)
  mrgTotal : Word
  mrgLast : BitVec 16
deriving DecidableEq, Repr

/-- A stream of a folio (R306 to R316) with the window in progress and the line in progress. -/
structure Stream where
  chan : ChanNo
  kind : Fin 5
  /-- Effective window, or N for a precision stream. -/
  window : Nat
  /-- Sub-ring length in lines, and base address. -/
  len : Nat
  base : Nat
  -- the window in progress
  taken : Nat
  sum : Nat
  lo : Nat
  hi : Nat
  first : Nat
  clipHi : Bool
  clipLo : Bool
  -- the line in progress: its line number, and the bytes packed in it
  lineNo : Option Nat
  packed : List (Nat × Byte)
  /-- Every sample before this one lies in lines that have gone to Stacks. -/
  upTo : Nat
deriving DecidableEq, Repr

/-- A folio of the Archive (chapter 13). -/
structure Folio where
  /-- STATE of R320, 0 to 6. -/
  state : Fin 7
  flushed : Bool
  endCause : BitVec 4
  /-- A cause for ending early that the core has still to act on (R324). -/
  endPend : Option (Fin 6)
  admitted : Bool
  cost : Nat
  shift : Nat
  postClamped : Bool
  preClamped : Bool
  refused : Bool
  refuseCause : BitVec 4
  primary : BitVec 4
  mask : BitVec 16
  ignored : BitVec 16
  streamCount : Nat
  arms : Word
  /-- ARMS and WIN_SHIFT of the last recording, for its header (R318). -/
  recArms : Word
  recShift : Nat
  armTick : Option Nat
  stopTick : Option Nat
  s0 : Nat
  last : Option Nat
  trigSample : Option Nat
  depth : Nat
  preEff : Nat
  postEff : Nat
  trigPoint : Option Nat
  horizon : Nat
  /-- Region base at the last arming. -/
  base : Nat
  streams : List Stream
  offsets : List Int
  /-- Scale log entries: sample index, channel, cause, new span or lane (R319). -/
  scaleLog : List (Nat × Nat × Nat × Nat)
  scaleOver : Bool
  /-- Trigger conditions met: source bit and trigger point T (R329). -/
  conds : List (Nat × Nat)
  /-- One more than the sample that was judged last (R332). -/
  judged : Nat
  flushPend : Bool
  /-- Number of the recording, which its staged words carry: the model's own. -/
  epoch : Nat
  /-- System time at which the folio becomes READY, or raises its complete source (R321, R327). -/
  dueAt : Nat
  /-- Samples and precision values that wait until judging shows that they lie within the recording (R309): channel,
  sample, code; and channel, value, second period's first sample, word. -/
  samples : List (ChanNo × Nat × Nat)
  precs : List (ChanNo × Nat × Nat × Word)
  /-- Data lines that have gone to Stacks and are not in DRAM (R326): line, and its first sample. -/
  flying : List (Nat × Nat)
  /-- Tick of an arm whose header is still to go to DRAM. -/
  hdrAt : Option Nat
deriving DecidableEq, Repr

/-- What an arm of a tick changes outside its folio, for a stop of that tick (R322): the folio before, LAST_FOLIO
before, whether DEPTH_CLAMPED rose, the place of the message that it called for, whether its vector became pending,
and whether the exit from self-refresh began. -/
structure ArmMark where
  folio : Fin 64
  before : Folio
  lastFolio : BitVec 6
  clamped : Bool
  msgAt : Option Nat
  pend : Bool
  woke : Bool
deriving DecidableEq, Repr

/-- The Archive (chapter 13). -/
structure Archive where
  folios : Vector Folio 64
  pinCfg : BitVec 8
  stgLost : Word
  stgLast : BitVec 10
  lastFolio : BitVec 6
  tagAddr : BitVec 64
  /-- Line whose tag read is in progress (R497). -/
  tagBusy : Option Nat
  tagData : BitVec 56
  tagPoison : Bool
  tagValid : Bool
  overcommit : Bool
  pinEdge : Vector (Option Nat) 4
  /-- Arms of the present tick, which a stop of that tick discards (R322). -/
  armSnap : List ArmMark
  /-- The judging lag that the Ndolek link has set (ARC_NDK_LAG). -/
  ndkLag : BitVec 16
deriving DecidableEq, Repr

/-- What a read of a line returns before any error: its bytes, the poison marks of its two blocks, and its tag. -/
structure LineData where
  bytes : List Byte
  bad0 : Bool
  bad1 : Bool
  tag : BitVec 56
deriving DecidableEq, Repr

/-- A request in a subchannel's queue (R357 to R362), a write with what it writes once it issues. -/
structure QReq where
  port : StkPort
  line : Nat
  write : Bool
  stamp : Nat
  promoted : Bool
  bank : Nat
  row : Nat
  requester : Requester
  /-- (offset, byte) of a write, as decoded on arrival (R348), the blocks that it writes as poison, and the tag that it
  writes, none where the line keeps its own (R350). -/
  bytes : List (Nat × Byte)
  bad0 : Bool
  bad1 : Bool
  tag : Option (BitVec 56)
  /-- A write of a part of the line whose read has not returned (R349). -/
  merge : Bool
  /-- The read through P5 for such a write. -/
  fetch : Bool
deriving DecidableEq, Repr

/-- The states of a subchannel (R366). -/
inductive SubState where
  | absent
  | init
  | train
  | restore
  | ready
  | sref
  | rate
  | fenced
deriving DecidableEq, Repr

/-- A DRAM subchannel (chapter 14). -/
structure Sub where
  state : SubState
  /-- Tick to which the pause of a retraining lasts (R371). -/
  pauseUntil : Nat
  deferred : Bool
  restored : Bool
  attempt : BitVec 2
  /-- Ticks at which the failed retraining is attempted again (R372). -/
  retryAt : List Nat
  retrainAt : Nat
  queue : List QReq
  /-- Reads issued and awaiting their return, with what their line held as they issued. -/
  reads : List (QReq × LineData)
  dirWrite : Bool
  burst : Nat
  /-- Banks in in-order mode, each with the writes that must issue before it ends (R361). -/
  inorder : List (Nat × Nat)
  corrT : BitVec 16
  corrL : BitVec 16
  uncorrT : BitVec 16
  uncorrL : BitVec 16
  retrainDone : BitVec 16
  retrainFailed : BitVec 16
  inorderCnt : Word
  refreshes : Nat
  /-- Tick from which refresh intervals count: that of the last refresh (R363). -/
  refreshFrom : Nat
  temp : BitVec 12
  tempValid : Bool
  /-- Tick from which the 16 ms of the sensor count. -/
  tempFrom : Nat
deriving DecidableEq, Repr

/-- The counters of a Stacks port. -/
structure PortCnt where
  req : Word
  late : Word
  promo : Word
  peak : Nat
deriving DecidableEq, Repr

/-- Stacks and its DRAM (chapter 14). -/
structure Stacks where
  dimms : Vector (Option Dimm) 8
  /-- The channels of the map, in ascending order (R339). -/
  channels : List (Fin 8)
  rankBits : Nat
  x8 : Bool
  dens32 : Bool
  mw : Nat
  cap : Nat
  /-- The bank masks in force since the last initialisation (R341). -/
  xor : Vector Word 5
  subs : Vector Sub 16
  ports : Vector PortCnt 6
  initDone : Bool
  initRunning : Bool
  zeroing : Bool
  sref : Bool
  srefExit : Bool
  rateBusy : Bool
  tcUsed : Bool
  nomem : Bool
  liveRate : BitVec 2
  wantRate : Option (BitVec 2)
  fence : BitVec 16
  scrubPos : Nat
  scrubPass : Word
  /-- Tick of the last scrub read (R354). -/
  scrubTick : Option Nat
  oor : Word
  srefCnt : Word
  idleFrom : Nat
  errType : BitVec 4
  errAddr : Nat
  dpCorr : BitVec 16
  dpUncorr : BitVec 16
  tcBusy : Bool
  /-- DRAM bytes other than 0, by address. -/
  mem : List Host.Cell
  /-- Ledger blocks (address ÷ 32) that hold the poison mark (R347), in rising order. -/
  poison : List Nat
  /-- Line tags other than all ones, by line (R345, R350). -/
  tags : List (Nat × BitVec 56)
  /-- Requests that have reached their ports and wait (R355, R357, R365), oldest first; the mark is that of a read for a
  write of a part of a line. -/
  waiting : List (StkPort × StkReq × Bool)
  /-- Lines read for a requester and not yet taken by it: their bytes, none for poison. -/
  returned : List (Requester × Nat × List (Option Byte))
deriving DecidableEq, Repr

/-- An MSI-X Table entry (R394). -/
structure MsixEntry where
  addr : BitVec 64
  data : Word
  masked : Bool
  pend : Bool
deriving DecidableEq, Repr

/-- The states of a DMA queue (HL_Q_STAT). -/
inductive QState where
  | disabled
  | idle
  | active
  | halted
  | paused
deriving DecidableEq, Repr

/-- A DMA queue (R387 to R393). -/
structure DmaQ where
  state : QState
  conflict : Bool
  flags : BitVec 6
  tail : BitVec 16
  head : BitVec 16
  bytes : BitVec 64
  descs : Word
  stopReq : Bool
  /-- A SHELF descriptor in progress: words taken, and the tick of the last one (R391). -/
  taken : List Word
  lastTake : Nat
  /-- The descriptor in progress, the bytes of an H2D or D2H one moved so far, and the flags that they have set
  (R390). -/
  cur : Option Descriptor
  moved : Nat
  soFar : Nat
deriving DecidableEq, Repr

/-- A write of the device into host memory (R385, R388). -/
structure HostWrite where
  addr : BitVec 64
  bytes : List Byte
  poisoned : Bool
deriving DecidableEq, Repr

/-- A BAR2 request that has reached the host link: its DRAM address, and the request. -/
structure Bar2Req where
  addr : Nat
  op : Bar2Op
deriving DecidableEq, Repr

/-- The host link (chapter 15). -/
structure HostLink where
  linkUp : Bool
  rate : BitVec 4
  width : BitVec 6
  bme : Bool
  msixEn : Bool
  funcMask : Bool
  perst : Bool
  bar2Base : BitVec 11
  cor : Vector (BitVec 8) 4
  unc : Vector (BitVec 8) 4
  /-- Window of 160,000 ticks in which a correctable error of each kind was last logged (R396). -/
  corWin : Vector (Option Nat) 4
  egressCorr : BitVec 16
  egressUncorr : BitVec 16
  msix : Vector MsixEntry 64
  dma : Vector DmaQ 16
  /-- The controls of the configuration space, and Advanced Error Reporting's status (R378). -/
  ctl : CfgCtl
  aerCor : Word
  aerUnc : Word
  /-- BAR2 requests that wait for Stacks, oldest first. -/
  bar2Wait : List Bar2Req
  /-- Writes of the DMA queues that wait for Bus Master Enable (R393). -/
  heldWrites : List HostWrite
deriving DecidableEq, Repr

/-- The states of the Ndolek link (Ndolek page STAT). -/
inductive NdkState where
  | down
  | linking
  | measuring
  | aligned
  | holdover
  | root
deriving DecidableEq, Repr

/-- A held edge of one line on its way (R413): its time in 1/16 tick, its MERGED mark, and the resends behind it. -/
structure HeldEdge where
  e : Int
  merged : Bool
  tries : Nat
deriving DecidableEq, Repr

/-- A message on its way, and the resends behind it (R416). -/
structure HeldMsg where
  words : Vector Word 4
  tries : Nat
deriving DecidableEq, Repr

/-- A frame sent that may still be NACKed (R416): its FSEQ, what it carried, and its frame tick. -/
structure SentFrame where
  fseq : BitVec 8
  edges : List (Fin 8 × HeldEdge)
  msg : Option HeldMsg
  frameTick : Nat
deriving DecidableEq, Repr

/-- The sender of one port (R413, R416, R417): the edges held per line, messages to forward, frames sent, and the
frame numbers to NACK. -/
structure NdkTx where
  held : Vector (List HeldEdge) 8
  msgs : List HeldMsg
  sent : List SentFrame
  nack : List (BitVec 8)
  /-- Tick at which the last frame left. -/
  lastFrame : Option Nat
deriving DecidableEq, Repr

/-- An edge to raise (R414): its e, and the system time of the raise. -/
structure DueEdge where
  e : Int
  at_ : Nat
deriving DecidableEq, Repr

/-- The Ndolek system link (chapter 16). -/
structure Ndolek where
  state : NdkState
  upLink : Bool
  downLink : Bool
  hub : Bool
  straps : Straps
  position : BitVec 5
  joined : Bool
  long : Bool
  lagLive : BitVec 16
  lagNext : Option (BitVec 16)
  /-- LAG_MIN of a root. -/
  lagMin : BitVec 16
  /-- PMAX that the port DOWN last reported. -/
  pmaxBelow : BitVec 16
  delay : BitVec 16
  /-- Sum and count of the probes of the present mean (R406). -/
  probeSum : Int
  probeCnt : Nat
  /-- The last ECHO received, and whether d has been measured since the port came up. -/
  lastEcho : BitVec 32
  measured : Bool
  /-- Departure stamp and arrival of the last probe from below, for ECHO and TURN. -/
  echo : BitVec 32
  echoAt : BitVec 32
  p : BitVec 16
  phase : BitVec 16
  /-- What the timebase has been slewed by, in 1/64 tick (R409). -/
  steer : Int
  /-- Super-periods in a row with a small phase error (R407); and of the running one, whether it has been measured from
  its start on, and whether an error in it was large. -/
  goodRun : Nat
  superWhole : Bool
  superBad : Bool
  everAligned : Bool
  /-- Ticks by which system time is to step (R409), and a load of the root (R410). -/
  stepTo : Option Int
  loadReq : Bool
  /-- Tick at which a super-period last began. -/
  lastSuper : Option Nat
  step : BitVec 64
  level : BitVec 8
  /-- End tick of each driven line (R412). -/
  drive : Vector (Option Nat) 8
  /-- System times between which the device last drove each line, the end left out. -/
  drove : Vector (Option (Nat × Nat)) 8
  /-- Edges to raise, per line (R414). -/
  raise : Vector (List DueEdge) 8
  /-- STATE of each line in the last good frame from below. -/
  belowState : BitVec 8
  /-- Lines whose present high level from below an edge of the OR, or of this device's drive, accounts for (R413). -/
  belowDone : BitVec 8
  up : NdkTx
  down : NdkTx
  rxSeqUp : Option (BitVec 8)
  rxSeqDown : Option (BitVec 8)
  badUp : Nat
  badDown : Nat
  retx : BitVec 16
  lost : BitVec 16
  crcUp : BitVec 16
  crcDown : BitVec 16
  late : BitVec 16
  merges : BitVec 16
  retxWin : Option Nat
  msgTx : Vector Word 4
  /-- The message of SEND that no frame has carried yet (TX_BUSY). -/
  txMsg : Option (Vector Word 4)
  rx : List (Vector Word 4)
  drops : BitVec 16
deriving DecidableEq, Repr

/-- A bay's Lintel status (chapter 8). -/
structure LintelBay where
  /-- Exact total T in µW, and T with every reducible channel at the floor, in µW. -/
  total : Nat
  floorPwr : Nat
  vfp : BitVec 16
  vfn : BitVec 16
  cls : BitVec 2
  atFloor : Bool
  limitFlag : Bool
  floorFlag : Bool
  /-- Whether the evaluation in progress holds an outcome for the bay: class and AT_FLOOR. -/
  result : Option (BitVec 2 × Bool)
  /-- Period boundaries after tick `upAt` still to pass before the bay is evaluated (R223, R499). -/
  skip : Nat
  upAt : Nat
deriving DecidableEq, Repr

/-- Lintel (chapter 8). -/
structure Lintel where
  bays : Vector LintelBay 16
  /-- Tick of the boundary whose evaluation runs, and of its completion. -/
  evalAt : Option Nat
  doneAt : Option Nat
  late : Word
  total : Nat
  /-- Period boundaries after tick `upAt` still to pass before the first evaluation (R223). -/
  skip : Nat
  upAt : Nat
deriving DecidableEq, Repr

/-- What Accession keeps for one channel (R260, R263, ACC_CH_STAT). -/
structure AccChan where
  coefs : Coefs
  count : Word
  time : Time
  code : BitVec 4
  span : BitVec 3
  attempted : Bool
  retried : Bool
  dirty : Bool
  failVal : Word
deriving DecidableEq, Repr

/-- The operations of Accession (R256). -/
inductive AccOp where
  | idle
  | run
  | store
  | load
deriving DecidableEq, Repr

/-- A bay's part of a calibration run (R244). -/
structure AccBay where
  /-- The bay has channels of the run in progress that have not ended. -/
  active : Bool
  todo : List (Fin 32)
  batch : List (Fin 32)
  refChecked : Bool
  /-- Cause 0x5 has asserted during the batch: the reading of the rail in mV (R255). -/
  railFault : Option Word
deriving DecidableEq, Repr

/-- Accession (chapter 10). -/
structure Accession where
  op : AccOp
  runPend : Bool
  storePend : Bool
  loadPend : Bool
  bays : Vector AccBay 16
  done : BitVec 10
  failedCnt : BitVec 10
  sel : Vector Word 16
  viewSel : BitVec 9
  chans : Vector AccChan 512
  inUse : Option (Fin 2)
  s0 : BitVec 2
  s1 : BitVec 2
  seq : Word
  last : BitVec 4
  /-- System time at which the store in progress began, and its read-backs that failed (R264). -/
  storeTime : Time
  storeTries : Nat
  /-- ACC_JNL_BASE as the operation in progress began. -/
  base : Nat
  /-- The load in progress is that of power-up, and its slot has been selected (R268). -/
  bootLoad : Bool
  picked : Bool
  /-- The load of power-up waits for the operation in progress. -/
  bootPend : Bool
deriving DecidableEq, Repr

/-- A fault-log entry (R425, R438), and a detection awaiting the log. -/
structure LogEntry where
  time : Time
  page : BitVec 12
  unit : BitVec 16
  code : BitVec 8
  attempts : BitVec 2
  cls : BitVec 2
  abandoned : Bool
  seq : BitVec 16
deriving DecidableEq, Repr

/-- Management: identity, access record, fault log and resets (chapters 2 and 17). -/
structure Mgmt where
  accAddr : BitVec 24
  accCause : BitVec 4
  accWrite : Bool
  fltSeq : Word
  fltAck : Word
  fltLost : Word
  nTrans : Word
  nLasting : Word
  nNotice : Word
  firstValid : Bool
  first : LogEntry
  log : Vector LogEntry 256
  /-- Detections decided and not yet taken by the log, with the tick of each. -/
  detected : List (Nat × LogEntry)
  /-- DEV_RST bits of the reset in progress, and the tick of its first write (R430). -/
  rst : BitVec 19
  rstTick : Nat
deriving DecidableEq, Repr

/-- What the flash is doing (R455). -/
inductive FlashUse where
  | free
  | boot
  | journal
  | cache
  | host (ctl addr : Word)
deriving DecidableEq, Repr

/-- The boot flash (R450 to R456). -/
structure Flash where
  params : Option FlashParams
  mode : BitVec 8
  /-- DIV of the flash clock, 200 MHz ÷ DIV, and whether addresses take 4 bytes (R450). -/
  div : Nat
  addr4 : Bool
  /-- Bytes other than 0xFF, by address. -/
  bytes : List Host.Cell
  use : FlashUse
  /-- Operations that wait, in order of request (R455). -/
  queue : List FlashUse
  ctl : Word
  addr : Word
  err : Bool
  buf : Vector Byte 256
deriving DecidableEq, Repr

/-- Power domains, supplies and boot (chapter 18). -/
structure Power where
  /-- The device is out of power-up reset (R441). -/
  powered : Bool
  vio : Bool
  vcore : Bool
  vddq : Bool
  vana : Bool
  rails : BitVec 16
  ctl : BitVec 20
  up : BitVec 20
  /-- Domains queued to switch, in ascending number (R445), and the tick from which the next switch may begin. -/
  queue : List (Fin 20)
  queueTick : Nat
  /-- The switch in progress: domain, on or off, and its tick t; and whether its power switch has opened (R447). -/
  current : Option (Fin 20 × Bool × Nat)
  opened : Bool
  /-- A bay switch-on waits for VANA (R443). -/
  held : Bool
  bootState : BitVec 3
  bootFlash : Bool
  bootDefault : Bool
  applied : BitVec 9
  skipped : BitVec 7
  /-- PD_INIT of the boot, and preload entries still to be applied. -/
  pdInit : BitVec 20
  preload : List (Word × Word)
  /-- The loader waits for a commit on this page to end (R454). -/
  waitCommit : Option Page
deriving DecidableEq, Repr

/-- An MSI-X message sent to the host (R52, R394). -/
structure MsixMsg where
  vector : BitVec 6
  addr : BitVec 64
  data : Word
deriving DecidableEq, Repr

/-- What has left the device, newest last: the words of the last BAR0 read, of the last BAR2 read with its EP bit, and
the streams of messages, host-memory writes, host-memory reads (address and length) and frames. -/
structure Out where
  read : List Word
  bar2 : List Byte
  bar2Poisoned : Bool
  msgs : List MsixMsg
  writes : List HostWrite
  reads : List (BitVec 64 × Nat)
  frames : List (Port × List Byte)
deriving DecidableEq, Repr

/-! ## The whole device -/

/-- The state of a GS512. -/
structure State where
  /-- Commands waiting, first in first out. -/
  pending : List Instr
  /-- Ticks counted since the timebase locked: the model's own count, in which durations run (R5, R6). -/
  tick : Nat
  /-- System time (R5, R408). -/
  time : Time
  locked : Bool
  /-- Plain counter to which `Config.freeValue` is applied: the model's own. -/
  free : Nat
  /-- Cascade depth of the task activation being carried out, if one is (R280): the model's own. -/
  actDepth : Option Nat
  pages : Vector PageHdr 601
  chans : Vector Chan 512
  bays : Vector Bay 16
  transom : Transom
  archive : Archive
  stk : Stacks
  host : HostLink
  ndolek : Ndolek
  lintel : Lintel
  acc : Accession
  mgmt : Mgmt
  flash : Flash
  power : Power
  out : Out
deriving DecidableEq, Repr

/-! ## The machine right after reset

The values stand in the register tables of the chapters. Every RWD field and every plain RW configuration
register is held as a difference from its table's reset word, so an empty store holds the reset values. -/

/-- The page header after reset (R31 tables), with the page's own vector (R34). -/
def PageHdr.reset (vec : BitVec 6) : PageHdr :=
  { view := false, taskApply := false, evt := 0, evtEn := 0, vec := vec, setTick := 0, setBits := 0,
    clampCount := 0, clampList := [], clampSeq := 0, seq := 0, aborted := false, pending := false,
    discardHeld := false, commitTime := 0, pairs := [], draft := [], live := [], captured := none,
    staged := none }

/-- The nominal pair: gain 1 and offset 0 (CH_DAC_GAIN, CH_MV_GAIN and the like). -/
def Pair.reset : Pair := { gain := 0x400000, ofs := 0 }

/-- The coefficients of a channel that no load and no run has filled (R242, R269). -/
def Coefs.reset : Coefs :=
  { dac := Vector.replicate 5 Pair.reset, drive := Pair.reset, mv := Pair.reset, bvs := Pair.reset,
    mi := Vector.replicate 5 Pair.reset, bis := Vector.replicate 2 Pair.reset, skew := 0, loaded := false }

/-- The held state of R88: switch off, span E, DAC at 0x4_0000, FIXED. -/
def Force.reset : Force :=
  { switch := .off, fixed := true, openReq := none, closeTick := none, firstOpen := none, closeCause := 0,
    causeWas := 0,
    refuseCause := 0, spanLive := .e, sel := false, selUse := false, spanReq := none,
    spanChange := none, toggleTick := none, changes := 0, superseded := 0, boostLive := false, boostReq := [],
    dacCode := 0x40000, dacTaken := none, codeLim := false, setptLim := false,
    setpt := 0x40000, boostAt := none }

/-- The limiter at rest at 0 V (CH_SLEW_OUT). -/
def Slew.reset : Slew := { out := 0x40000, target := 0x40000, next := none, last := 0, undo := none }

/-- No program runs, and the register source presents 0 V (CH_PROG_VAL). -/
def Prog.reset : Prog :=
  { running := false, done := false, ready := false, fault := false, swpVal := 0x40000, cdxVal := 0x40000,
    swpStarted := false, cdxStarted := false, lvHigh := false, startTick := none, stopTick := none,
    index := 0, pass := 0, cur := 0, next := none, dwellAt := none, dwellEnded := none, point := 0,
    passes := 0, pointAt := none, window := [], primed := [], priming := false, misses := 0, pulses := 0,
    leadAt := none, trailAt := none, tripped := false, tripBase := false, tripTick := none, trips := 0,
    lvClear := none }

def SashSt.reset : SashSt :=
  { ist := 0, dst := 0, eprev := 0, limhi := false, limlo := false, os := 15, fresh := false }

def FrzBlock.reset : FrzBlock := { n := 0, fbMin := 0, fbMax := 0, preMin := 0, preMax := 0 }

/-- The loop is idle (CH_MODE, CH_LOOP_STAT). -/
def Loop.reset : Loop :=
  { mode := .idle, rate := 0, div := 2, modeReq := [], lower := SashSt.reset, upper := SashSt.reset,
    vsp := 0x40000, corr := 0, ff := 0x40000, active := 0, vclamp := false, esat := false, osat := false, cause := 0,
    freeze := false, freezeReq := [], held := false, grace := none, releaseReq := none, resetReq := none,
    openCnt := 0, frz := FrzBlock.reset, lastState := .idle, leftRun := none, rescale := none, rescaleOut := none,
    lin := 0xFFFF, transient := 0, lost := 0,
    overruns := 0 }

def Box.reset : Box := { v := 0, i := 0, ovrV := false, ovrI := false, n := 0, span := .e, boost := false }

def LaneFlags.reset : LaneFlags :=
  { ovr := false, clip := false, spanChg := false, inputFirst := false, inputInner := false, closed := false,
    cal := false, uncal := false }

def LaneAcc.reset : LaneAcc := { a := 0, w := 0, flags := LaneFlags.reset }

def Prec.reset : Prec :=
  { pdec := 0, running := false, restart := none, nowV := LaneAcc.reset, nowI := LaneAcc.reset,
    prev := none, closed := none }

/-- The measure path with nominal pairs, none of them loaded (CH_MEAS_STAT.UNCAL). -/
def Meas.reset : Meas :=
  { inflight := none, pairV := Pair.reset, pairI := Pair.reset, uncal := true, fastV := 0, fastI := 0,
    ovrV := false, ovrI := false, clipV := false, clipI := false, flane := false, plane := false,
    laneReq := [], box := Box.reset, boxes := [], linBoxes := [], prec := Prec.reset, pv := 0, pi := 0, pvalid := false,
    ovrCntV := 0, ovrCntI := 0, scaleTime := 0, inputAt := none, corrI := 0x800000, lastWord := none }

def Res.reset : Res := { seq := 0, fresh := true, capture := none, merged := 0 }

/-- Raw state inside and latch not tripped (R206). -/
def Window.reset : Window :=
  { raw := .inside, latch := .inside, mirror := .inside, blankUntil := 0, blankPend := false, leftAt := none,
    setAt := [],
    clearedAt := none, count := 0, time := 0, mismRun := 0, mismOn := false, mism := 0 }

/-- A channel whose domain has just come up. (DESIGN CHOICE: log entry 7) -/
def Chan.reset : Chan :=
  { force := Force.reset, slew := Slew.reset, prog := Prog.reset, slewAlt := none, progSnap := none,
    loop := Loop.reset, meas := Meas.reset,
    res := Res.reset, winV := Window.reset, winI := Window.reset, coefs := Coefs.reset, coefLoad := none,
    hold := none, lintel := 0xFFFF, lintelNew := none, power := 0, stgFast := [], stgPrec := [] }

/-- An empty queue, all positions 0 (R303). -/
def ShelfQ.reset : ShelfQ :=
  { slots := [], w := 0, o := 0, rd := 0, wSeen := 0, oSeen := 0, rdSeen := 0, rdTrail := [],
    last := 0, lossPend := false, level := false, tmoFrom := none,
    flushing := false, flushTo := none, flushed := 0, lost := 0, under := 0, written := 0, passWords := [],
    midItem := false,
    burstTick := 0, burst := 0 }

def Trace.reset : Trace :=
  { running := false, armReq := none, stopReq := none, t0 := 0, frame := 0, entries := [], full := false,
    wrapped := false, spilling := [], halves := 0, lost := 0, rdptr := 0, mode := 0, decim := 0,
    slots := Vector.replicate 4 0, held := [] }

def SashEng.reset : SashEng :=
  { rotate := 0, todo := [], due := 0, reached := 0, lastRotate := 0, lastDue := 0, lastDone := 0,
    overruns := 0, skipped := [], dacq := [], feed := [], feedLost := [], noFeed := [], frameStart := none,
    frameTime := 0, trace := Trace.reset }

def CatConv.reset : CatConv :=
  { slot := none, last := none, injReq := none, startReq := none, retryReq := none, retryRes := none,
    shared := none, injEntry := 0, late := 0, results := Vector.replicate 16 none, injResult := none }

/-- Both converters stopped, results not valid (R240). -/
def Cat.reset : Cat :=
  { a := CatConv.reset, b := CatConv.reset, holdReq := none, held := false, queue := [], retryPairs := 0,
    xfault := false, pass := 0, unpaired := 0, transient := 0, lasting := 0, lastA := 0, lastB := 0 }

/-- A bay whose domain has just come up; MIN reads 0xFFFF (BAY_SPEED_MIN). (DESIGN CHOICE: log entry 7) -/
def Bay.reset : Bay :=
  { speed := 0, speedValid := false, speedMin := 0xFFFF, speedFrom := 0, listPtr := 0, lists := [],
    sash := SashEng.reset, shelf := ShelfQ.reset, cat := Cat.reset }

def Line.reset : Line :=
  { count := 0, delayed := none, dlost := 0, merged := 0, events := 0, loopFault := false, lastIn := none }

def Timer.reset : Timer :=
  { running := false, nextAt := 0, period := 0, count := 0, expired := 0, stopTick := none }

/-- No event is carried, and no line is enabled (R286). (DESIGN CHOICE: log entry 7) -/
def Transom.reset : Transom :=
  { raised := [], fired := [], events := [], offers := [], hopTick := none, lines := Vector.replicate 256 Line.reset,
    timers := Vector.replicate 16 Timer.reset, loopCnt := 0, pdDrop := 0, mrgSel := 0, mrgCnt := [],
    mrgTotal := 0, mrgLast := 0 }

def Folio.reset : Folio :=
  { state := 0, flushed := false, endCause := 0, endPend := none, admitted := false, cost := 0, shift := 0,
    postClamped := false, preClamped := false, refused := false, refuseCause := 0, primary := 0, mask := 0,
    ignored := 0, streamCount := 0, arms := 0, recArms := 0, recShift := 0, armTick := none, stopTick := none,
    s0 := 0, last := none,
    trigSample := none, depth := 0, preEff := 0, postEff := 0, trigPoint := none, horizon := 0,
    base := 0, streams := [], offsets := [], scaleLog := [], scaleOver := false, conds := [], judged := 0,
    flushPend := false, epoch := 0, dueAt := 0, samples := [], precs := [], flying := [], hdrAt := none }

/-- No folio is admitted; every trigger pin takes rising edges (ARC_PIN_CFG). (DESIGN CHOICE: log entry 7) -/
def Archive.reset : Archive :=
  { folios := Vector.replicate 64 Folio.reset, pinCfg := 0x55, stgLost := 0, stgLast := 0, lastFolio := 0,
    tagAddr := 0, tagBusy := none, tagData := 0, tagPoison := false, tagValid := false, overcommit := false,
    pinEdge := Vector.replicate 4 none, armSnap := [], ndkLag := 0 }

def Sub.reset : Sub :=
  { state := .absent, pauseUntil := 0, deferred := false, restored := false, attempt := 0, retryAt := [],
    retrainAt := 0, queue := [], reads := [], dirWrite := false, burst := 0, inorder := [], corrT := 0,
    corrL := 0, uncorrT := 0, uncorrL := 0, retrainDone := 0, retrainFailed := 0, inorderCnt := 0,
    refreshes := 0, refreshFrom := 0, temp := 0, tempValid := false, tempFrom := 0 }

def PortCnt.reset : PortCnt := { req := 0, late := 0, promo := 0, peak := 0 }

/-- Stacks before its first initialisation; the bank masks in force are the reset masks (STK_XOR_0 to 4). (DESIGN
CHOICE: log entry 7) -/
def Stacks.reset : Stacks :=
  { dimms := Vector.replicate 8 none, channels := [], rankBits := 0, x8 := false, dens32 := false, mw := 0,
    cap := 0, xor := #v[0x00101001, 0x00202002, 0x00404004, 0x00808008, 0x01010010],
    subs := Vector.replicate 16 Sub.reset, ports := Vector.replicate 6 PortCnt.reset, initDone := false,
    initRunning := false, zeroing := false, sref := false, srefExit := false, rateBusy := false,
    tcUsed := false, nomem := false, liveRate := 2, wantRate := none, fence := 0,
    scrubPos := 0, scrubPass := 0, scrubTick := none, oor := 0, srefCnt := 0, idleFrom := 0, errType := 0, errAddr := 0,
    dpCorr := 0, dpUncorr := 0, tcBusy := false, mem := [], poison := [], tags := [],
    waiting := [], returned := [] }

def DmaQ.reset : DmaQ :=
  { state := .disabled, conflict := false, flags := 0, tail := 0, head := 0, bytes := 0, descs := 0,
    stopReq := false, taken := [], lastTake := 0, cur := none, moved := 0, soFar := 0 }

/-- PCI Express gives a vector masked after reset (R394). (PRESUMED: log entry 30) -/
def MsixEntry.reset : MsixEntry := { addr := 0, data := 0, masked := true, pend := false }

/-- The configuration space's controls as PCI Express resets them. (PRESUMED: log entry 30) -/
def CfgCtl.reset : CfgCtl :=
  { memSpace := false, bar0 := 0, bar2 := 0, maxPayload := 0, maxRead := 2, tag10 := false, cplTimeout := 0,
    cplTimeoutOff := false, ecrcGen := false, ecrcCheck := false, d3hot := false }

/-- (DESIGN CHOICE: log entry 7; PRESUMED: log entry 30) -/
def HostLink.reset : HostLink :=
  { linkUp := false, rate := 0, width := 0, bme := false, msixEn := false, funcMask := false, perst := true,
    bar2Base := 0, cor := Vector.replicate 4 0, unc := Vector.replicate 4 0,
    corWin := Vector.replicate 4 none, egressCorr := 0, egressUncorr := 0,
    msix := Vector.replicate 64 MsixEntry.reset, dma := Vector.replicate 16 DmaQ.reset
    ctl := CfgCtl.reset, aerCor := 0, aerUnc := 0, bar2Wait := [], heldWrites := [] }

def NdkTx.reset : NdkTx :=
  { held := Vector.replicate 8 [], msgs := [], sent := [], nack := [], lastFrame := none }

/-- (DESIGN CHOICE: log entry 6) -/
def Straps.none : Straps := { root := false, ref100 := false, chain := 0 }

/-- The Ndolek link before it has trained; the lag in force is 0x0100 (NDK_LAG_LIVE). (DESIGN CHOICE: log entry 7) -/
def Ndolek.reset : Ndolek :=
  { state := .down, upLink := false, downLink := false, hub := false, straps := Straps.none, position := 0,
    joined := false, long := false, lagLive := 0x0100, lagNext := none, lagMin := 0, pmaxBelow := 0, delay := 0,
    probeSum := 0, probeCnt := 0, lastEcho := 0, measured := false, echo := 0, echoAt := 0, p := 0, phase := 0,
    steer := 0, goodRun := 0,
    superWhole := false, superBad := false,
    everAligned := false, stepTo := none, loadReq := false, lastSuper := none, step := 0, level := 0,
    drive := Vector.replicate 8 none, drove := Vector.replicate 8 none, raise := Vector.replicate 8 [], belowState := 0,
    belowDone := 0, up := NdkTx.reset,
    down := NdkTx.reset, rxSeqUp := none, rxSeqDown := none, badUp := 0, badDown := 0, retx := 0, lost := 0,
    crcUp := 0, crcDown := 0, late := 0, merges := 0, retxWin := none, msgTx := Vector.replicate 4 0,
    txMsg := none, rx := [], drops := 0 }

/-- A bay's Lintel status; the rails read their nominal values (LIN_RAIL). -/
def LintelBay.reset : LintelBay :=
  { total := 0, floorPwr := 0, vfp := 10500, vfn := 5000, cls := 0, atFloor := false, limitFlag := false,
    floorFlag := false, result := none, skip := 0, upAt := 0 }

/-- (DESIGN CHOICE: log entry 7) -/
def Lintel.reset : Lintel :=
  { bays := Vector.replicate 16 LintelBay.reset, evalAt := none, doneAt := none, late := 0, total := 0,
    skip := 0, upAt := 0 }

def AccChan.reset : AccChan :=
  { coefs := Coefs.reset, count := 0, time := 0, code := 0, span := 0, attempted := false,
    retried := false, dirty := false, failVal := 0 }

def AccBay.reset : AccBay := { active := false, todo := [], batch := [], refChecked := false, railFault := none }

/-- Accession with no slot in use and both slots in state 1 (ACC_JNL_STAT). (DESIGN CHOICE: log entry 7) -/
def Accession.reset : Accession :=
  { op := .idle, runPend := false, storePend := false, loadPend := false,
    bays := Vector.replicate 16 AccBay.reset, done := 0, failedCnt := 0, sel := Vector.replicate 16 0,
    viewSel := 0, chans := Vector.replicate 512 AccChan.reset, inUse := none, s0 := 1, s1 := 1, seq := 0, last := 0,
    storeTime := 0, storeTries := 0,
    base := 0x100000, bootLoad := false, picked := false, bootPend := false }

def LogEntry.reset : LogEntry :=
  { time := 0, page := 0, unit := 0, code := 0, attempts := 0, cls := 0, abandoned := false, seq := 0 }

/-- (DESIGN CHOICE: log entry 7) -/
def Mgmt.reset : Mgmt :=
  { accAddr := 0, accCause := 0, accWrite := false, fltSeq := 0, fltAck := 0, fltLost := 0, nTrans := 0,
    nLasting := 0, nNotice := 0, firstValid := false, first := LogEntry.reset,
    log := Vector.replicate 256 LogEntry.reset, detected := [], rst := 0, rstTick := 0 }

/-- The flash controller before discovery. An erased flash stands for the content of a flash that nothing has
programmed. (DESIGN CHOICE: log entry 8) -/
def Flash.reset : Flash :=
  { params := none, mode := 0, div := 10, addr4 := false, bytes := [], use := .free, queue := [], ctl := 0, addr := 0, err := false,
    buf := Vector.replicate 256 0 }

/-- Power-up reset: VIO and VCORE in range, PD0 and PD1 up, every other domain down (DEV_PD_CTL, DEV_PD_STAT,
DEV_SUPPLY, DEV_BOOT). (DESIGN CHOICE: log entry 6) -/
def Power.reset : Power :=
  { powered := false, vio := true, vcore := true, vddq := false, vana := false, rails := 0, ctl := 3, up := 3,
    queue := [], queueTick := 0, current := none, opened := false, held := false, bootState := 0,
    bootFlash := false, bootDefault := false, applied := 0, skipped := 0, pdInit := 0,
    preload := [], waitCommit := none }

/-- (DESIGN CHOICE: log entry 12) -/
def Out.reset : Out :=
  { read := [], bar2 := [], bar2Poisoned := false, msgs := [], writes := [], reads := [], frames := [] }

/-- The reset vector number of the page with index `i` in `State.pages` (R34): the vector of a further page is
that of its block's main page. -/
def pageVector (i : Nat) : BitVec 6 :=
  if i < 3 then 0
  else if i < 8 then 1
  else if i < 17 then 2
  else if i < 18 then 3
  else if i < 22 then 4
  else if i < 23 then 5
  else if i < 24 then 6
  else if i < 25 then 7
  else if i < 89 then BitVec.ofNat 6 (8 + (i - 25) % 16)
  else BitVec.ofNat 6 (8 + (i - 89) / 32)

/-- The 601 page headers after reset. (DESIGN CHOICE: log entry 6) -/
def resetPages : Vector PageHdr 601 :=
  ⟨⟨(List.range 601).map fun i => PageHdr.reset (pageVector i)⟩, by simp⟩

/-- The machine right after power-up reset (R441): nothing has run, and no command waits. (DESIGN CHOICE: log entries
5, 6) -/
def State.reset : State :=
  { pending := [], tick := 0, time := 0, locked := false, free := 0, actDepth := none,
    pages := resetPages,
    chans := Vector.replicate 512 Chan.reset, bays := Vector.replicate 16 Bay.reset,
    transom := Transom.reset, archive := Archive.reset, stk := Stacks.reset, host := HostLink.reset,
    ndolek := Ndolek.reset, lintel := Lintel.reset, acc := Accession.reset, mgmt := Mgmt.reset,
    flash := Flash.reset, power := Power.reset, out := Out.reset }

end Sys2Proof.Machine
end

