-- ==== Sys2Proof/Machine/Operands.lean ====
section
/-! DEFINITION. The arithmetic of the manual, exact over the integers and narrowed where a rule narrows it:
rounding and saturation, the Sash control law, the DAC correction and code limit, sample correction, the
precision filter, window levels, and Catalogue and Lintel arithmetic. -/

namespace Sys2Proof.Machine

/-! ## Rounding and saturation (chapter 5, "The control law") -/

/-- rnd(x, s). -/
def rnd (x : Int) (s : Nat) : Int := if s = 0 then x else (x + 2 ^ (s - 1)) / 2 ^ s

/-- sat(x, lo, hi). -/
def sat (x lo hi : Int) : Int := if x < lo then lo else if hi < x then hi else x

/-- x × num ÷ den, rounded to nearest with halves away from zero (R149). -/
def mulRatio (x num den : Int) : Int :=
  if x * num < 0 then -((2 * (-(x * num)) + den) / (2 * den)) else (2 * (x * num) + den) / (2 * den)

/-- x ÷ d rounded to the nearest integer, halves up (R132). -/
def meanUp (x d : Nat) : Nat := if d = 0 then 0 else (2 * x + d) / (2 * d)

def lim39lo : Int := -(2 ^ 39)
def lim39hi : Int := 2 ^ 39 - 1

/-! ## Spans (R10) -/

/-- Full scale in nA. -/
def spanFs (sp : Span) : Nat :=
  match sp with
  | .a => 2000
  | .b => 20000
  | .c => 200000
  | .d => 2000000
  | .e => 32000000

/-- Encoding of a span (chapter 3, the span table). -/
def spanCode (sp : Span) : Nat :=
  match sp with
  | .a => 0
  | .b => 1
  | .c => 2
  | .d => 3
  | .e => 4

def spanOf (n : Nat) : Span :=
  match n with
  | 0 => .a
  | 1 => .b
  | 2 => .c
  | 3 => .d
  | _ => .e

/-- Position of a span among the five pairs of a channel. -/
def spanIdx (sp : Span) : Fin 5 :=
  match sp with
  | .a => 0
  | .b => 1
  | .c => 2
  | .d => 3
  | .e => 4

/-! ## Codes (R61, R62) -/

def zeroV : Int := 0x40000
def zeroI : Int := 0x80000

/-- The FI limit at the limiter input (R62). -/
def fiLimit (code : Int) : Int := sat code 0x40000 0xC0000

def code20 (x : Int) : BitVec 20 := BitVec.ofInt 20 x

def codeInt (x : BitVec 20) : Int := (x.toNat : Int)

/-! ## DAC correction and code limit (R63, R64, R76) -/

/-- R63 about the centre code C. -/
def dacCorrect (c code : Int) (p : Pair) : Int :=
  c + ((code - c) * (p.gain.toNat : Int) + 2 ^ 21) / 2 ^ 22 + p.ofs.toInt

/-- Lower and upper code limit of a Native channel (R64). -/
def nativeLimits : Int × Int := (0x05680, 0xDC400)

/-- Lower and upper code limit of a Booster channel with a drive limit in mV (R64). -/
def boostLimits (drvLim : Nat) : Int × Int :=
  let l : Int := (drvLim : Int) * 2 ^ 19 / 1000
  (max 0 (0x80000 - l), min 0xFFFFF (0x80000 + l))

/-- The feed-forward drive code of R76. -/
def boostFf (s : Int) (ffg : Nat) : Int := 0x80000 + ((s - 0x40000) * (ffg : Int) + 2 ^ 21) / 2 ^ 22

/-! ## One computation of a sash (R133) -/

/-- The coefficients of one sash. -/
structure SashCoef where
  kp : Int
  ki : Int
  kd : Int
  fa : Int
  es : Nat
  os : Nat

/-- What one computation leaves: the sash state but its limit flags, and the nodes of R160. -/
structure SashOut where
  st : SashSt
  e : Int
  p : Int
  corr : Int
  esat : Bool
  osat : Bool
  corrHi : Bool
  corrLo : Bool

/-- ist and dst after a change of OS (R150). -/
def sashScaleOs (st : SashSt) (os : Nat) : SashSt :=
  if st.os = os then st
  else
    let f (x : Int) : Int :=
      if st.os ≤ os then sat (x * 2 ^ (os - st.os)) lim39lo lim39hi else sat (mulRatio x 1 (2 ^ (st.os - os)))
        lim39lo lim39hi
    { st with ist := f st.ist, dst := f st.dst, os := os }

/-- R133, for the error e24 in range units; R143 at the first computation in RUN. -/
def sashLaw (c : SashCoef) (st0 : SashSt) (e24 : Int) : SashOut :=
  let st := sashScaleOs st0 c.os
  let er := rnd e24 c.es
  let e := sat er (-32768) 32767
  let eprev := if st.fresh then e else st.eprev
  let p := c.kp * e
  let draw := c.kd * (e - eprev)
  let dst := sat (st.dst + c.fa * (draw - st.dst) / 32768) lim39lo lim39hi
  let inc := c.ki * e
  let imax : Int := min (2 ^ (c.os + 19)) (2 ^ 39) - 1
  let ist :=
    if (decide (0 < inc) && st.limhi) || (decide (inc < 0) && st.limlo) then st.ist
    else sat (st.ist + inc) (-imax) imax
  let acc := sat (p + ist + dst) lim39lo lim39hi
  let cr := rnd acc c.os
  let corr := sat cr (-524288) 524287
  { st := { st with ist := ist, dst := dst, eprev := e, fresh := false }
    e := e
    p := p
    corr := corr
    esat := decide (e ≠ er)
    osat := decide (corr ≠ cr)
    corrHi := decide (524287 < cr)
    corrLo := decide (cr < -524288) }

/-- The held correction of PARKED (R142). -/
def parkedCorr (st : SashSt) : Int :=
  sat (rnd (sat (st.ist + st.dst) lim39lo lim39hi) st.os) (-524288) 524287

/-- eprev and dst of a sash multiplied by the ratio of two full scales (R149). -/
def sashScaleSpan (st : SashSt) (num den : Nat) : SashSt :=
  { st with
    eprev := sat (mulRatio st.eprev (num : Int) (den : Int)) (-32768) 32767
    dst := sat (mulRatio st.dst (num : Int) (den : Int)) lim39lo lim39hi }

/-- The limiter output about 0x8_0000 multiplied by the ratio of two full scales (R149). (DEDUCED: log entry 41) -/
def slewScaleSpan (out : Int) (num den : Nat) : Int :=
  fiLimit (0x80000 + mulRatio (out - 0x80000) (num : Int) (den : Int))

/-- The FV error of R137 and the term it names: 0 voltage, 1 sourcing limit, 2 sinking limit. -/
def fvError (ev ihi ilo fbi : Int) (cgain : Nat) : Int × Nat :=
  let ehi := (ihi - fbi) * (cgain : Int) / 4096
  let elo := (ilo - fbi) * (cgain : Int) / 4096
  let m := min ev ehi
  if m < elo then (elo, 2) else if ehi < ev then (ehi, 1) else (ev, 0)

/-! ## The measure path (R169, R174, R178) -/

def zeroV24 : Int := 0x400000
def zeroI24 : Int := 0x800000

/-- Over-range raw codes (R166). -/
def rawOver (raw : BitVec 18) : Bool := raw == 0 || raw == 0x3FFFF

/-- The corrected value of a raw code about the zero C, and whether correction saturated it (R169). -/
def correctRaw (c : Int) (raw : BitVec 18) (p : Pair) : Nat × Bool :=
  let x : Int := 64 * (raw.toNat : Int)
  let y := c + ((x - c) * (p.gain.toNat : Int) + 2 ^ 21) / 2 ^ 22 + p.ofs.toInt
  let r := sat y 0 0xFFFFFF
  (r.toNat, decide (r ≠ y))

/-- The fast code of a sample (R174). (DEDUCED: log entry 40) -/
def fastCode (raw : BitVec 18) (corr : Nat) : BitVec 16 :=
  if raw = 0 then 0
  else if raw = 0x3FFFF then 0xFFFF
  else BitVec.ofInt 16 (sat (rnd (corr : Int) 8) 0x0001 0xFFFE)

/-- The precision value of the periods (A0, W0) and (A1, W1) of N samples each (R178). -/
def precValue (n w0 a1 w1 : Nat) : Nat :=
  let d := n * (n + 1)
  (w0 + (n + 1) * a1 + d / 2 - w1) / d

/-! ## Windows (R194 to R196) -/

/-- Range units of one threshold step: 64 fast codes of 256 range units each (R193). -/
def thrUnit : Int := 16384

/-- The raw state of a window for an input level in units in which a threshold step is `u` (R195). LO above HI
is replaced by HI (R196). -/
def rawNext (u : Int) (r : Raw) (hi lo0 h : Nat) (level : Int) : Raw :=
  let lo : Int := if hi < lo0 then (hi : Int) else (lo0 : Int)
  let up := u * ((hi : Int) + (h : Int)) < level
  let down := level < u * (lo - (h : Int))
  match r with
  | .inside => if up then .above else if down then .below else .inside
  | .above => if down then .below else if level < u * (hi : Int) then .inside else .above
  | .below => if up then .above else if u * lo < level then .inside else .below

/-- Code of a raw state, a latch or a mirror (CH_CMP_STAT). -/
def rawCode (r : Raw) : Nat :=
  match r with
  | .inside => 0
  | .above => 1
  | .below => 2

/-- The level that the windows compare for an input level under STEST (R207). (DEDUCED: log entry 135) -/
def stestLevel (stest : Nat) (level : Int) : Int :=
  if stest = 2 then thrUnit * 1039 else if stest = 3 then thrUnit * (-16) else level

/-- The lane code lies at least 128 fast codes beyond the level at which the raw state would take the mirror's value
(R209). (DEDUCED: log entry 58) -/
def mirrorFar (raw mirror : Raw) (hi lo0 h : Nat) (code : Nat) : Bool :=
  let lo : Int := if hi < lo0 then (hi : Int) else (lo0 : Int)
  let c : Int := (code : Int)
  match mirror with
  | .above => decide (64 * ((hi : Int) + (h : Int)) + 128 ≤ c)
  | .below => decide (c ≤ 64 * (lo - (h : Int)) - 128)
  | .inside =>
    match raw with
    | .above => decide (c ≤ 64 * (hi : Int) - 128)
    | .below => decide (64 * lo + 128 ≤ c)
    | .inside => false

/-- 16-bit and 32-bit fields of a word. -/
def hi16 (w : Word) : BitVec 16 := w.extractLsb' 16 16
def lo16 (w : Word) : BitVec 16 := w.extractLsb' 0 16

/-- A word of two halves. -/
def halves (hi lo : BitVec 16) : Word := hi ++ lo

/-- Words of a 64-bit value. -/
def lo32 (x : BitVec 64) : Word := x.extractLsb' 0 32
def hi32 (x : BitVec 64) : Word := x.extractLsb' 32 32

end Sys2Proof.Machine
end

