-- ==== Sys2Proof/Machine/Sparse.lean ====
section
/-! DEFINITION. Sparse stores: DRAM bytes, flash bytes, list memory, line tags and register words. A store is a
list of (key, value) pairs in rising keys that lists nothing equal to what an unlisted key reads as. -/

namespace Sys2Proof.Machine

/-- The value at a key; an unlisted key reads as `d` gives. -/
def sparseGet {α : Type} (d : Nat → α) (l : List (Nat × α)) (k : Nat) : α :=
  match l with
  | [] => d k
  | (o, v) :: rest => if o = k then v else sparseGet d rest k

/-- The store without its entry at a key. -/
def sparseErase {α : Type} (l : List (Nat × α)) (k : Nat) : List (Nat × α) :=
  match l with
  | [] => []
  | (o, v) :: rest => if o = k then rest else if k < o then (o, v) :: rest else (o, v) :: sparseErase rest k

/-- The store with an entry at a key. -/
def sparseInsert {α : Type} (l : List (Nat × α)) (k : Nat) (v : α) : List (Nat × α) :=
  match l with
  | [] => [(k, v)]
  | (o, w) :: rest =>
    if o = k then (k, v) :: rest
    else if k < o then (k, v) :: (o, w) :: rest
    else (o, w) :: sparseInsert rest k v

/-- The store with a value at a key: a value that an unlisted key reads as is not listed. -/
def sparseSet {α : Type} [DecidableEq α] (d : Nat → α) (l : List (Nat × α)) (k : Nat) (v : α) :
    List (Nat × α) :=
  if v = d k then sparseErase l k else sparseInsert l k v

/-- The canonical form. -/
def sparseWf {α : Type} [DecidableEq α] (d : Nat → α) (l : List (Nat × α)) : Bool :=
  match l with
  | [] => true
  | (k, v) :: rest => decide (v ≠ d k) && rest.all (fun x => decide (k < x.1)) && sparseWf d rest

/-- The store with consecutive values from a key. -/
def sparseSetAll {α : Type} [DecidableEq α] (d : Nat → α) (l : List (Nat × α)) (k : Nat) (vs : List α) :
    List (Nat × α) :=
  match vs with
  | [] => l
  | v :: rest => sparseSetAll d (sparseSet d l k v) (k + 1) rest

/-- Values at consecutive keys. -/
def sparseGetAll {α : Type} (d : Nat → α) (l : List (Nat × α)) (k n : Nat) : List α :=
  (List.range n).map fun i => sparseGet d l (k + i)

/-- A set of numbers in rising order: membership and change of a member. -/
def setMember (l : List Nat) (k : Nat) (on : Bool) : List Nat :=
  match l with
  | [] => if on then [k] else []
  | o :: rest =>
    if o = k then (if on then o :: rest else rest)
    else if k < o then (if on then k :: o :: rest else o :: rest)
    else o :: setMember rest k on

end Sys2Proof.Machine
end

