-- ==== Sys2Proof/Machine/RegMap.lean ====
section
/-! DEFINITION. The BAR0 map of chapter 2 and the RWD fields of every page: where each lies, its reset value,
and the values that a commit's range check allows. -/

namespace Sys2Proof.Machine

/-! ## Pages and addresses -/

/-- The position of a page in `State.pages`. -/
def pageIndex (p : Page) : Fin 601 :=
  match p with
  | .device => 0
  | .faultLog i => ⟨1 + i.val, by omega⟩
  | .transom => 3
  | .line q => ⟨4 + q.val, by omega⟩
  | .archive => 8
  | .folio q => ⟨9 + q.val, by omega⟩
  | .stk => 17
  | .host => 18
  | .dma i => ⟨19 + i.val, by omega⟩
  | .msix => 21
  | .ndolek => 22
  | .lintel => 23
  | .accession => 24
  | .bay b => ⟨25 + b.val, by omega⟩
  | .catalogue b => ⟨41 + b.val, by omega⟩
  | .sash b => ⟨57 + b.val, by omega⟩
  | .shelf b => ⟨73 + b.val, by omega⟩
  | .channel g => ⟨89 + g.val, by omega⟩

/-- The BAR0 base address of a page (R26, R287, R305, R381, R424). -/
def pageBase (p : Page) : Nat :=
  match p with
  | .device => 0
  | .faultLog i => 0x1000 + 0x1000 * i.val
  | .transom => 0x10000
  | .line q => 0x11000 + 0x1000 * q.val
  | .archive => 0x20000
  | .folio q => 0x21000 + 0x1000 * q.val
  | .stk => 0x30000
  | .host => 0x40000
  | .dma i => 0x41000 + 0x1000 * i.val
  | .msix => 0x43000
  | .ndolek => 0x50000
  | .lintel => 0x60000
  | .accession => 0x70000
  | .bay b => 0x100000 + 0x40000 * b.val
  | .catalogue b => 0x101000 + 0x40000 * b.val
  | .sash b => 0x102000 + 0x40000 * b.val
  | .shelf b => 0x103000 + 0x40000 * b.val
  | .channel g => 0x110000 + 0x40000 * (bayOf g).val + 0x1000 * (inBay g).val

/-- The page of a bay's window at page number `n` of the window (R26). -/
def bayPage (b : BayNo) (n : Nat) : Option Page :=
  match n with
  | 0 => some (.bay b)
  | 1 => some (.catalogue b)
  | 2 => some (.sash b)
  | 3 => some (.shelf b)
  | m => if h : 16 ≤ m ∧ m < 48 then some (.channel (chanOf b ⟨m - 16, by omega⟩)) else none

/-- The page of a BAR0 address, none where nothing is mapped (R26). -/
def pageOf (addr : Nat) : Option Page :=
  let n := addr / 0x1000
  match n with
  | 0x00 => some .device
  | 0x01 => some (.faultLog 0)
  | 0x02 => some (.faultLog 1)
  | 0x10 => some .transom
  | 0x11 => some (.line 0)
  | 0x12 => some (.line 1)
  | 0x13 => some (.line 2)
  | 0x14 => some (.line 3)
  | 0x20 => some .archive
  | 0x30 => some .stk
  | 0x40 => some .host
  | 0x41 => some (.dma 0)
  | 0x42 => some (.dma 1)
  | 0x43 => some .msix
  | 0x50 => some .ndolek
  | 0x60 => some .lintel
  | 0x70 => some .accession
  | m =>
    if h : 0x21 ≤ m ∧ m < 0x29 then some (.folio ⟨m - 0x21, by omega⟩)
    else if h : 0x100 ≤ m ∧ m < 0x500 then bayPage ⟨(m - 0x100) / 64, by omega⟩ ((m - 0x100) % 64)
    else none

/-- The power domain of a page (chapter 18, the domain table). -/
def pageDomain (p : Page) : Fin 20 :=
  match p with
  | .device | .faultLog _ | .ndolek | .accession => 0
  | .host | .dma _ | .msix => 1
  | .stk => 2
  | .transom | .line _ | .archive | .folio _ | .lintel => 3
  | .bay b | .catalogue b | .sash b | .shelf b => ⟨4 + b.val, by omega⟩
  | .channel g => ⟨4 + (bayOf g).val, by have := (bayOf g).isLt; omega⟩

/-- TYPE and INSTANCE of PAGE_ID (R34, R287, R305, R381, R424). -/
def pageId (p : Page) : Word :=
  let id (t n : Nat) : Word := BitVec.ofNat 32 (t * 65536 + n)
  match p with
  | .device => id 0x0001 0
  | .faultLog i => id 0x0100 i.val
  | .transom => id 0x0002 0
  | .line q => id 0x0101 q.val
  | .archive => id 0x0003 0
  | .folio q => id 0x0103 q.val
  | .stk => id 0x0004 0
  | .host => id 0x0005 0
  | .dma i => id 0x0105 i.val
  | .msix => id 0x0106 0
  | .ndolek => id 0x0006 0
  | .lintel => id 0x0007 0
  | .accession => id 0x0008 0
  | .bay b => id 0x0010 b.val
  | .catalogue b => id 0x0011 b.val
  | .sash b => id 0x0012 b.val
  | .shelf b => id 0x0013 b.val
  | .channel g => id 0x0014 g.val

/-- PAGE_REV of stepping B1 (R32). -/
def pageRev : Word := 0x00000100

/-- A page with a commit task input (R49). -/
def hasCommitTask (p : Page) : Bool :=
  match p with
  | .folio _ | .dma _ | .msix | .faultLog _ => false
  | _ => true

/-- The reset vector of a page (R34). -/
def vecReset (p : Page) : BitVec 6 := pageVector (pageIndex p).val

/-! ## Where the slots of a page lie -/

/-- Slot number and offset in the slot of a byte offset, for `n` slots of `size` bytes from `base`. -/
def inSlot (base size n off : Nat) : Option (Nat × Nat) :=
  if base ≤ off ∧ off < base + size * n then some ((off - base) / size, (off - base) % size) else none

/-- The folio with slot `k` of folio page `q` (R305). -/
def folioOf (q : Fin 8) (k : Fin 8) : Fin 64 := ⟨8 * q.val + k.val, by omega⟩

/-- The page that holds folio `f`, and its slot offset (R305). -/
def folioPage (f : Fin 64) : Page := .folio ⟨f.val / 8, by omega⟩
def folioSlot (f : Fin 64) : Nat := 0x100 + 0x1C0 * (f.val % 8)

/-- The page that holds DMA queue `q`, and its slot offset (R400). -/
def dmaPage (q : Fin 16) : Page := .dma ⟨q.val / 8, by omega⟩
def dmaSlot (q : Fin 16) : Nat := 0x100 + 0x40 * (q.val % 8)

/-- The page that holds line `n`, and its offset (R287). -/
def linePage (n : Fin 256) : Page := .line ⟨n.val / 64, by omega⟩
def lineSlot (n : Fin 256) : Nat := 0x100 + 32 * (n.val % 64)

/-! ## RWD words: implemented bits and reset value -/

/-- The RWD bits of a word and their reset value. -/
structure RwdWord where
  mask : Word
  reset : Word

/-- RWD words of a channel page (chapters 3 to 7). -/
def chanRwd (off : Nat) : Option RwdWord :=
  match off with
  | 0x0C0 => some ⟨0x000FFFFF, 0x00040000⟩
  | 0x0C4 => some ⟨0x0000FFFF, 0x00000001⟩
  | 0x0C8 => some ⟨0x000FFFFF, 0⟩
  | 0x0D0 => some ⟨0x01000377, 0x00000044⟩
  | 0x100 => some ⟨0x00000003, 0⟩
  | 0x110 => some ⟨0x0FFF0FFF, 0⟩
  | 0x114 => some ⟨0xFFFF0033, 0x00010000⟩
  | 0x120 => some ⟨0xFFFFFFC0, 0⟩
  | 0x124 => some ⟨0x000001FF, 0⟩
  | 0x128 => some ⟨0x7FFFFFFF, 0x00000001⟩
  | 0x12C => some ⟨0x00FFFFFF, 0x00000050⟩
  | 0x130 => some ⟨0x3FFFFFFF, 0⟩
  | 0x134 => some ⟨0x0000FFFF, 0x00000001⟩
  | 0x140 => some ⟨0x000FFFFF, 0x00040000⟩
  | 0x144 => some ⟨0x000FFFFF, 0x00040000⟩
  | 0x148 => some ⟨0x00FFFFFF, 0x00000050⟩
  | 0x14C => some ⟨0xFFFFFFFF, 0x000000A0⟩
  | 0x150 => some ⟨0x00FFFFFF, 0x00000001⟩
  | 0x154 => some ⟨0xFFFFFFFF, 0⟩
  | 0x158 => some ⟨0x0000001F, 0⟩
  | 0x180 => some ⟨0x00007F1F, 0x00000200⟩
  | 0x184 => some ⟨0xFFFFFFFF, 0⟩
  | 0x188 => some ⟨0xFFFFFFFF, 0x80000000⟩
  | 0x18C => some ⟨0x00001F0F, 0x00000F04⟩
  | 0x190 => some ⟨0xFFFFFFFF, 0⟩
  | 0x194 => some ⟨0xFFFFFFFF, 0x80000000⟩
  | 0x198 => some ⟨0x00001F0F, 0x00000F04⟩
  | 0x19C => some ⟨0x0000FFFF, 0x000004E2⟩
  | 0x1A0 => some ⟨0x00000003, 0⟩
  | 0x1A4 => some ⟨0x00FFFFFF, 0x00400000⟩
  | 0x1A8 => some ⟨0x000003FF, 0x000003E8⟩
  | 0x1B4 => some ⟨0xFFFFFFFF, 0⟩
  | 0x1B8 => some ⟨0xFFFFFFFF, 0x80000000⟩
  | 0x1C0 => some ⟨0xFFFFFFFF, 0xFFFFFFFF⟩
  | 0x1C4 => some ⟨0xFFFFFFFF, 0xFFFFFFFF⟩
  | 0x1C8 => some ⟨0x000FFFFF, 0x000DC400⟩
  | 0x1CC => some ⟨0x000FFFFF, 0x00005680⟩
  | 0x1D4 => some ⟨0xFFFFF3FF, 0x02800010⟩
  | 0x1D8 => some ⟨0xFFFFFFFF, 0x40000010⟩
  | 0x200 => some ⟨0x000000F3, 0⟩
  | 0x240 => some ⟨0x00000F0F, 0x00000004⟩
  | 0x280 => some ⟨0xF3FF03FF, 0x13FF0000⟩
  | 0x284 => some ⟨0xF3FF03FF, 0x13FF0000⟩
  | 0x288 => some ⟨0x00171F1F, 0x00000404⟩
  | 0x28C => some ⟨0x0003FFFF, 0x00000050⟩
  | 0x290 => some ⟨0x0003FFFF, 0⟩
  | _ => none

/-- RWD words of a line of a Transom line page (TR_LN_SRC to TR_LN_GRPCH), by offset in the line. -/
def lineRwd (off : Nat) : Option RwdWord :=
  match off with
  | 0x00 => some ⟨0x0007FFFF, 0x0000FFFF⟩
  | 0x04 => some ⟨0x00FFFFFF, 0x00000001⟩
  | 0x08 => some ⟨0xFFFFFFFF, 0xFFFFFFFF⟩
  | 0x0C => some ⟨0xFFFFFFFF, 0xFFFFFFFF⟩
  | 0x10 => some ⟨0xFFFF001F, 0⟩
  | 0x14 => some ⟨0xFFFFFFFF, 0⟩
  | _ => none

/-- RWD words of a folio slot (R336), by offset in the slot. -/
def folioRwd (off : Nat) : Option RwdWord :=
  if off = 0x000 then some ⟨0xFFFF0001, 0⟩
  else if off = 0x004 ∨ off = 0x008 then some ⟨0xFFFF31FF, 0x80000000⟩
  else if off = 0x010 then some ⟨0xFFFF0000, 0⟩
  else if off = 0x014 then some ⟨0x000001FF, 0⟩
  else if off = 0x018 then some ⟨0x03FFFFFF, 0x00000002⟩
  else if off = 0x020 ∨ off = 0x028 then some ⟨0xFFFFFFFF, 0⟩
  else if off = 0x024 ∨ off = 0x02C then some ⟨0x0000FFFF, 0⟩
  else if off = 0x038 ∨ off = 0x044 ∨ off = 0x050 then some ⟨0x0000001F, 0⟩
  else if 0x030 ≤ off ∧ off < 0x054 then some ⟨0xFFFFFFFF, 0⟩
  else if 0x060 ≤ off ∧ off < 0x0E0 then some ⟨0xFFFFFFFF, 0⟩
  else none

/-- RWD words of a DMA queue's slot (R400), by offset in the slot. -/
def dmaRwd (off : Nat) : Option RwdWord :=
  match off with
  | 0x00 => some ⟨0x00000FFF, 0⟩
  | 0x08 => some ⟨0xFFFFFFE0, 0⟩
  | 0x0C => some ⟨0xFFFFFFFF, 0⟩
  | 0x10 => some ⟨0xFFFFFFFC, 0⟩
  | 0x14 => some ⟨0xFFFFFFFF, 0⟩
  | _ => none

/-- Reset values of STK_PORT_CFG_p and STK_PORT_LAT_p (R356). -/
def portReset (p : Nat) : Word × Word :=
  match p with
  | 0 => (BitVec.ofNat 32 (96 * 256 + 0), BitVec.ofNat 32 3200)
  | 1 => (BitVec.ofNat 32 (32 * 256 + 1), BitVec.ofNat 32 1600)
  | 2 => (BitVec.ofNat 32 (32 * 256 + 2), BitVec.ofNat 32 16000)
  | 3 => (BitVec.ofNat 32 (16 * 256 + 2), BitVec.ofNat 32 16000)
  | 4 => (BitVec.ofNat 32 (4 * 256 + 3), BitVec.ofNat 32 1600000)
  | _ => (BitVec.ofNat 32 (12 * 256 + 1), BitVec.ofNat 32 1600)

/-- RWD words of the Stacks page (R377). -/
def stacksRwd (off : Nat) : Option RwdWord :=
  match off with
  | 0x040 => some ⟨0x00000037, 0x00000016⟩
  | 0x044 => some ⟨0x000FFFFF, 0x000003E8⟩
  | 0x048 => some ⟨0x0000FFFF, 0x000003E8⟩
  | 0x04C => some ⟨0x00FFFFFF, 0x0004E200⟩
  | 0x050 => some ⟨0x0000FFFF, 0x00000200⟩
  | 0x06C => some ⟨0xFFFE0000, 0x000C0000⟩
  | 0x0A0 => some ⟨0x7FFFFFE0, 0x00101001⟩
  | 0x0A4 => some ⟨0x7FFFFFE0, 0x00202002⟩
  | 0x0A8 => some ⟨0x7FFFFFE0, 0x00404004⟩
  | 0x0AC => some ⟨0x7FFFFFE0, 0x00808008⟩
  | 0x0B0 => some ⟨0x7FFFFFE0, 0x01010010⟩
  | _ =>
    match inSlot 0x100 0x20 6 off with
    | some (p, 0) => some ⟨0x0000FF03, (portReset p).1⟩
    | some (p, 4) => some ⟨0x00FFFFFF, (portReset p).2⟩
    | _ => none

/-- RWD words of a Catalogue page (chapter 9). -/
def catRwd (off : Nat) : Option RwdWord :=
  if off = 0x040 ∨ off = 0x044 then some ⟨0x0000001F, 0⟩
  else if off = 0x048 then some ⟨0xFFF3FFFF, 0x02010010⟩
  else
    match inSlot 0x100 8 32 off with
    | some (_, 0) => some ⟨0x0000B7FF, 0x00000045⟩
    | some (_, 4) => some ⟨0xFFFFFFFF, 0x00004000⟩
    | _ => none

/-- RWD words of the Lintel page (chapter 8). -/
def lintelRwd (off : Nat) : Option RwdWord :=
  if off = 0x040 then some ⟨0x0003FFFF, 0x0000BB80⟩
  else if off = 0x044 then some ⟨0x00FFFF0F, 0x0004000E⟩
  else if 0x100 ≤ off ∧ off < 0x140 then some ⟨0x0000FFFF, 0x00000BB8⟩
  else if 0x200 ≤ off ∧ off < 0x280 then some ⟨0xFFFFFFFF, 0⟩
  else none

/-- RWD words of a Sash page (chapter 5). -/
def sashRwd (off : Nat) : Option RwdWord :=
  match off with
  | 0x050 | 0x054 | 0x058 | 0x05C => some ⟨0x00008F1F, 0⟩
  | 0x060 => some ⟨0x00000F03, 0⟩
  | 0x088 => some ⟨0xFFFF0000, 0⟩
  | 0x08C => some ⟨0x000001FF, 0⟩
  | 0x090 => some ⟨0x03FFFFFF, 0x00000004⟩
  | _ => none

/-- The RWD word of page `p` at byte offset `off`, if there is one. -/
def rwd (p : Page) (off : Nat) : Option RwdWord :=
  if off % 4 ≠ 0 then none
  else
    match p with
    | .channel _ => chanRwd off
    | .line _ => (inSlot 0x100 32 64 off).bind fun x => lineRwd x.2
    | .folio _ => (inSlot 0x100 0x1C0 8 off).bind fun x => folioRwd x.2
    | .dma _ => (inSlot 0x100 0x40 8 off).bind fun x => dmaRwd x.2
    | .stk => stacksRwd off
    | .catalogue _ => catRwd off
    | .lintel => lintelRwd off
    | .sash _ => sashRwd off
    | .transom =>
      match inSlot 0x100 16 16 off with
      | some (_, 0) => some ⟨0xFFFFFFFF, 0x00000050⟩
      | some (_, 4) => some ⟨0x0000FFFF, 0x00000001⟩
      | _ => none
    | .shelf _ =>
      match off with
      | 0x040 => some ⟨0x00000FFF, 0x00000400⟩
      | 0x044 => some ⟨0x000FFFFF, 0x00000064⟩
      | _ => none
    | .accession =>
      match off with
      | 0x040 => some ⟨0x000003F3, 0x00000180⟩
      | 0x044 => some ⟨0x007FFFFF, 0x004C4B40⟩
      | 0x050 => some ⟨0xFFFE0000, 0x00100000⟩
      | _ => none
    | .host => if off = 0x044 then some ⟨0x00000001, 0x00000001⟩ else none
    | .ndolek =>
      match off with
      | 0x040 => some ⟨0xFFFF0003, 0x00400001⟩
      | 0x044 => some ⟨0x0000FFFF, 0x00000100⟩
      | 0x048 => some ⟨0x0000FFFF, 0⟩
      | 0x050 | 0x054 => some ⟨0xFFFFFFFF, 0⟩
      | _ => none
    | .device | .faultLog _ | .archive | .msix | .bay _ => none

/-- The reset value of an RWD word, 0 where there is none. -/
def rwdReset (p : Page) (off : Nat) : Word := ((rwd p off).map RwdWord.reset).getD 0

/-! ## Register stores -/

/-- The word of a page's store at an offset. -/
def storeGet (p : Page) (st : RegStore) (off : Nat) : Word := sparseGet (rwdReset p) st off

/-- The store with a word at an offset. -/
def storeSet (p : Page) (st : RegStore) (off : Nat) (w : Word) : RegStore := sparseSet (rwdReset p) st off w

/-! ## Range checks (R37, R38) -/

/-- A field that a commit may clamp: its word, its least significant bit, its width, and the legal value taken
for each value. -/
structure ClampRule where
  off : Nat
  lsb : Nat
  width : Nat
  fix : Nat → Nat

/-- The field identifier (R33). -/
def ClampRule.id (r : ClampRule) : BitVec 16 := BitVec.ofNat 16 (r.off / 4 * 64 + r.lsb)

/-- The nearest value of a range. -/
def clampTo (lo hi n : Nat) : Nat := if n < lo then lo else if hi < n then hi else n

/-- The nearest multiple of 4 from 4 to 2^25, the lower of two (SASH_TRACE_LEN). -/
def fixTraceLen (n : Nat) : Nat :=
  clampTo 4 (2 ^ 25) (if n % 4 ≤ 2 then n - n % 4 else n + (4 - n % 4))

/-- The nearest legal SRC of R228, the lower of two. -/
def fixCatSrc (n : Nat) : Nat :=
  if n ≤ 0x47 then n
  else if n ≤ 0x4B then 0x47
  else if n ≤ 0x58 then 0x50
  else if n < 0x60 then 0x60
  else if n ≤ 0x68 then n
  else 0x68

/-- Range checks of a channel page in ascending field identifier. BOOST is legal only on channels 0 to 3 of a
bay (CH_FORCE_CFG). -/
def chanClamps (c : Fin 32) : List ClampRule :=
  [⟨0x0C4, 0, 16, clampTo 1 65535⟩, ⟨0x0D0, 0, 3, clampTo 0 4⟩, ⟨0x0D0, 4, 3, clampTo 0 4⟩,
    ⟨0x0D0, 24, 1, fun n => if c.val < 4 then n else 0⟩, ⟨0x114, 0, 2, clampTo 0 2⟩,
    ⟨0x114, 4, 2, clampTo 0 2⟩, ⟨0x128, 0, 31, clampTo 1 (2 ^ 30)⟩, ⟨0x12C, 0, 24, clampTo 80 16777215⟩,
    ⟨0x148, 0, 24, clampTo 1 16777215⟩, ⟨0x14C, 0, 32, clampTo 2 4294967295⟩] ++
  [⟨0x180, 8, 7, clampTo 2 64⟩, ⟨0x188, 16, 16, clampTo 1 0x8000⟩, ⟨0x194, 16, 16, clampTo 1 0x8000⟩,
    ⟨0x19C, 0, 16, clampTo 1 65535⟩, ⟨0x1A8, 0, 10, clampTo 100 1000⟩, ⟨0x1B8, 16, 16, clampTo 1 0x8000⟩,
    ⟨0x1C8, 0, 20, clampTo 0x05680 0xDC400⟩, ⟨0x1CC, 0, 20, clampTo 0x05680 0xDC400⟩,
    ⟨0x1D4, 12, 10, fun n => if n = 1 then 2 else n⟩, ⟨0x1D4, 22, 10, clampTo 0 1000⟩] ++
  [⟨0x240, 0, 2, clampTo 0 2⟩, ⟨0x240, 2, 2, clampTo 1 3⟩, ⟨0x288, 16, 3, clampTo 0 3⟩,
    ⟨0x28C, 0, 18, clampTo 80 160000⟩]

/-- The range checks of a page in ascending field identifier (R37). -/
def clampRules (p : Page) : List ClampRule :=
  match p with
  | .channel g => chanClamps (inBay g)
  | .line _ =>
    (List.range 64).flatMap fun n =>
      [⟨0x100 + 32 * n, 17, 2, clampTo 0 2⟩, ⟨0x104 + 32 * n, 0, 24, clampTo 1 16777215⟩]
  | .folio _ => (List.range 8).map fun k => ⟨0x118 + 0x1C0 * k, 0, 26, clampTo 2 (2 ^ 25)⟩
  | .dma _ =>
    (List.range 8).flatMap fun k =>
      [⟨0x100 + 0x40 * k, 1, 2, clampTo 0 2⟩, ⟨0x100 + 0x40 * k, 8, 4, clampTo 0 12⟩]
  | .stk =>
    [⟨0x040, 0, 2, clampTo 0 2⟩, ⟨0x040, 4, 2, clampTo 1 3⟩, ⟨0x044, 0, 20, clampTo 1 1000000⟩,
      ⟨0x048, 0, 16, clampTo 10 60000⟩, ⟨0x04C, 0, 24, clampTo 1600 16777215⟩] ++
    (List.range 6).flatMap fun k =>
      [⟨0x100 + 0x20 * k, 8, 8, clampTo 1 192⟩, ⟨0x104 + 0x20 * k, 0, 24, clampTo 16 16777215⟩]
  | .catalogue _ =>
    [⟨0x040, 0, 5, clampTo 0 16⟩, ⟨0x044, 0, 5, clampTo 0 16⟩, ⟨0x048, 16, 2, clampTo 1 3⟩,
      ⟨0x048, 20, 12, clampTo 1 4095⟩] ++
    (List.range 32).map fun n => ⟨0x100 + 8 * n, 0, 8, fixCatSrc⟩
  | .lintel =>
    [⟨0x040, 0, 18, clampTo 1000 145000⟩, ⟨0x044, 0, 4, clampTo 8 15⟩, ⟨0x044, 8, 16, clampTo 1 65535⟩]
  | .sash _ =>
    [⟨0x050, 8, 3, clampTo 0 5⟩, ⟨0x054, 8, 3, clampTo 0 5⟩, ⟨0x058, 8, 3, clampTo 0 5⟩,
      ⟨0x05C, 8, 3, clampTo 0 5⟩, ⟨0x060, 0, 2, clampTo 0 2⟩, ⟨0x090, 0, 26, fixTraceLen⟩]
  | .transom => (List.range 16).map fun k => ⟨0x100 + 16 * k, 0, 32, clampTo 1 4294967295⟩
  | .shelf _ => [⟨0x040, 0, 12, clampTo 1 2048⟩, ⟨0x044, 0, 20, clampTo 0 1000000⟩]
  | .accession =>
    [⟨0x040, 4, 4, clampTo 1 8⟩, ⟨0x040, 8, 2, clampTo 1 3⟩, ⟨0x044, 0, 23, clampTo 2500000 5500000⟩]
  | .ndolek =>
    [⟨0x040, 0, 2, clampTo 1 3⟩, ⟨0x040, 16, 16, clampTo 64 65535⟩, ⟨0x044, 0, 16, clampTo 1 65535⟩]
  | .host | .device | .faultLog _ | .archive | .msix | .bay _ => []

/-- A word with a field replaced. -/
def setField (w : Word) (lsb width n : Nat) : Word :=
  let m : Word := (BitVec.ofNat 32 (2 ^ width - 1)) <<< lsb
  (w &&& ~~~m) ||| ((BitVec.ofNat 32 n <<< lsb) &&& m)

/-- A field of a word. -/
def field (w : Word) (lsb width : Nat) : Nat := w.toNat / 2 ^ lsb % 2 ^ width

/-- One check: the store and the list of clamped fields after it. -/
def clampOne (p : Page) (acc : RegStore × List ClampRule) (r : ClampRule) : RegStore × List ClampRule :=
  let w := storeGet p acc.1 r.off
  let n := field w r.lsb r.width
  if r.fix n = n then acc
  else (storeSet p acc.1 r.off (setField w r.lsb r.width (r.fix n)), acc.2 ++ [r])

/-- The range check of captured drafts: the checked values, and the clamped fields in check order (R37). -/
def clampAll (p : Page) (st : RegStore) : RegStore × List ClampRule :=
  (clampRules p).foldl (clampOne p) (st, [])

end Sys2Proof.Machine
end

