-- ==== Sys2Proof/Machine/Ops.lean ====
section
/-! DEFINITION. The named operations that every block shares: reading and changing one page, channel or bay of
the state, power and reset of a page, events and MSI-X messages, sources, detections for the fault log, free
values, and the boundaries of the timebase. -/

namespace Sys2Proof.Machine

/-- What a command answers. -/
abbrev Ret := Host.Outcome State Fault Refusal

/-! ## Elements of a vector -/

def vset {α : Type} {n : Nat} (v : Vector α n) (i : Fin n) (x : α) : Vector α n := v.set i.val x i.isLt

def vmod {α : Type} {n : Nat} (v : Vector α n) (i : Fin n) (f : α → α) : Vector α n := vset v i (f v[i])

/-! ## Parts of the state -/

def State.page (s : State) (p : Page) : PageHdr := s.pages[pageIndex p]

def State.modPage (s : State) (p : Page) (f : PageHdr → PageHdr) : State :=
  { s with pages := vmod s.pages (pageIndex p) f }

def State.chan (s : State) (g : ChanNo) : Chan := s.chans[g]

def State.modChan (s : State) (g : ChanNo) (f : Chan → Chan) : State := { s with chans := vmod s.chans g f }

def State.bay (s : State) (b : BayNo) : Bay := s.bays[b]

def State.modBay (s : State) (b : BayNo) (f : Bay → Bay) : State := { s with bays := vmod s.bays b f }

def State.modForce (s : State) (g : ChanNo) (f : Force → Force) : State :=
  s.modChan g fun c => { c with force := f c.force }

/-- A change of the slew limiter. In the first tick of a frame it is the feed-forward of that frame (R95). -/
def State.modSlew (s : State) (g : ChanNo) (f : Slew → Slew) : State :=
  s.modChan g fun c =>
    let l := f c.slew
    { c with
      slew := l
      slewAlt := c.slewAlt.map fun x => (f x.1, x.2)
      loop := if (s.bay (bayOf g)).sash.frameStart = some s.tick then { c.loop with ff := l.out } else c.loop }

def State.modProg (s : State) (g : ChanNo) (f : Prog → Prog) : State :=
  s.modChan g fun c => { c with prog := f c.prog }

def State.modLoop (s : State) (g : ChanNo) (f : Loop → Loop) : State :=
  s.modChan g fun c => { c with loop := f c.loop }

def State.modMeas (s : State) (g : ChanNo) (f : Meas → Meas) : State :=
  s.modChan g fun c => { c with meas := f c.meas }

def State.modRes (s : State) (g : ChanNo) (f : Res → Res) : State :=
  s.modChan g fun c => { c with res := f c.res }

def State.modSash (s : State) (b : BayNo) (f : SashEng → SashEng) : State :=
  s.modBay b fun x => { x with sash := f x.sash }

def State.modShelf (s : State) (b : BayNo) (f : ShelfQ → ShelfQ) : State :=
  s.modBay b fun x => { x with shelf := f x.shelf }

def State.modCat (s : State) (b : BayNo) (f : Cat → Cat) : State :=
  s.modBay b fun x => { x with cat := f x.cat }

def State.modTransom (s : State) (f : Transom → Transom) : State := { s with transom := f s.transom }

def State.modArchive (s : State) (f : Archive → Archive) : State := { s with archive := f s.archive }

def State.folio (s : State) (f : Fin 64) : Folio := s.archive.folios[f]

def State.modFolio (s : State) (f : Fin 64) (h : Folio → Folio) : State :=
  s.modArchive fun a => { a with folios := vmod a.folios f h }

def State.modStacks (s : State) (f : Stacks → Stacks) : State := { s with stk := f s.stk }

def State.sub (s : State) (i : Fin 16) : Sub := s.stk.subs[i]

def State.modSub (s : State) (i : Fin 16) (f : Sub → Sub) : State :=
  s.modStacks fun k => { k with subs := vmod k.subs i f }

def State.modHost (s : State) (f : HostLink → HostLink) : State := { s with host := f s.host }

def State.dmaQ (s : State) (q : Fin 16) : DmaQ := s.host.dma[q]

def State.modDma (s : State) (q : Fin 16) (f : DmaQ → DmaQ) : State :=
  s.modHost fun h => { h with dma := vmod h.dma q f }

def State.modNdk (s : State) (f : Ndolek → Ndolek) : State := { s with ndolek := f s.ndolek }

def State.modLintel (s : State) (f : Lintel → Lintel) : State := { s with lintel := f s.lintel }

def State.modAcc (s : State) (f : Accession → Accession) : State := { s with acc := f s.acc }

def State.modMgmt (s : State) (f : Mgmt → Mgmt) : State := { s with mgmt := f s.mgmt }

def State.modFlash (s : State) (f : Flash → Flash) : State := { s with flash := f s.flash }

def State.modPower (s : State) (f : Power → Power) : State := { s with power := f s.power }

def State.modOut (s : State) (f : Out → Out) : State := { s with out := f s.out }

/-- A loop over a list of indices. -/
def State.each {α : Type} (s : State) (l : List α) (f : α → State → State) : State :=
  l.foldl (fun s x => f x s) s

/-- All numbers below `n`, as `Fin n`. -/
def allFin (n : Nat) : List (Fin n) := List.finRange n

/-- The 32 channels of a bay, in ascending number. -/
def bayChans (b : BayNo) : List ChanNo := (allFin 32).map (chanOf b)

/-! ## Power and reset of a page -/

/-- The domain is up (DEV_PD_STAT.UP, R441). (DEDUCED: log entry 14) -/
def domUp (s : State) (d : Fin 20) : Bool := s.power.powered && s.power.up.getLsbD d.val

/-- The page's power domain is up. -/
def pageUp (s : State) (p : Page) : Bool := domUp s (pageDomain p)

/-- The power domain of bay `b`. -/
def bayDomain (b : BayNo) : Fin 20 := ⟨4 + b.val, by omega⟩

def bayUp (s : State) (b : BayNo) : Bool := domUp s (bayDomain b)

/-- The bit of DEV_RST whose target holds a page, if one does (R429). Accession's page is in PD0 and is no
target of the core reset, which reaches its sequencer only. -/
def rstBit (p : Page) : Option Nat :=
  match p with
  | .bay b | .catalogue b | .sash b | .shelf b => some b.val
  | .channel g => some (bayOf g).val
  | .transom | .line _ | .archive | .folio _ | .lintel => some 16
  | .stk => some 17
  | .dma _ => some 18
  | .device | .faultLog _ | .host | .msix | .ndolek | .accession => none

/-- A DEV_RST reset of the page's target is in progress (R430, R431). (DEDUCED: log entry 70) -/
def pageInReset (s : State) (p : Page) : Bool :=
  match rstBit p with
  | some k => s.mgmt.rst.getLsbD k
  | none => false

/-- The page can be reached: its domain is up and no reset of it is in progress (R28, R431). -/
def pageOpen (s : State) (p : Page) : Bool := pageUp s p && !pageInReset s p

/-! ## Live and draft values of RWD fields (chapter 2) -/

def liveWord (s : State) (p : Page) (off : Nat) : Word := storeGet p (s.page p).live off

def draftWord (s : State) (p : Page) (off : Nat) : Word := storeGet p (s.page p).draft off

/-- The live value of a field. -/
def live (s : State) (p : Page) (off lsb width : Nat) : Nat := field (liveWord s p off) lsb width

/-- The live value of a one-bit field. -/
def liveBit (s : State) (p : Page) (off lsb : Nat) : Bool := (liveWord s p off).getLsbD lsb

/-! ## The timebase -/

/-- System time is at a boundary of `n` ticks. -/
def onMult (s : State) (n : Nat) : Bool := s.locked && s.time.toNat % n == 0

/-- The present tick is a frame boundary (R128). -/
def onFrame (s : State) : Bool := onMult s 80

/-- `k` ticks have passed since tick `t`. -/
def sinceIs (s : State) (t k : Nat) : Bool := s.tick == t + k

/-- The present tick is at least one tick after tick `t`. -/
def after (s : State) (t : Nat) : Bool := t < s.tick

/-! ## Free values -/

/-- The next value that the spec leaves open. (DESIGN CHOICE: log entry 11) -/
def freeNow (s : State) : BitVec 64 := Config.freeValue s.free

/-- The state after one free value has been taken. (DESIGN CHOICE: log entry 11) -/
def takeFree (s : State) : State := { s with free := s.free + 1 }

/-! ## MSI-X and events -/

/-- A message called for on a vector (R394): discarded while MSI-X Enable is 0, pending while the vector or the
function is masked, and sent otherwise. (DESIGN CHOICE: log entry 12) -/
def callMsg (s : State) (v : BitVec 6) : State :=
  let i : Fin 64 := ⟨v.toNat, v.isLt⟩
  if !s.host.msixEn then s
  else if s.host.funcMask || s.host.msix[i].masked then
    s.modHost fun h => { h with msix := vmod h.msix i fun e => { e with pend := true } }
  else
    s.modOut fun o =>
      { o with msgs := o.msgs ++ [{ vector := v, addr := s.host.msix[i].addr, data := s.host.msix[i].data }] }

/-- A bit mask of one bit. -/
def bit1 (n : Nat) : Word := (1 : Word) <<< n

/-- A page header whose event bit `n` hardware sets in tick `t` (R50, R51). (DEDUCED: log entry 21) -/
def hdrSetEvt (t n : Nat) (h : PageHdr) : PageHdr :=
  { h with
    evt := h.evt ||| bit1 n
    setBits := (if h.setTick = t then h.setBits else 0) ||| bit1 n
    setTick := t }

/-- Hardware sets event bit `n` of a page; an enabled bit that rises calls for a message (R50, R52). A page
whose domain is off has no event bits. -/
def setEvt (s : State) (p : Page) (n : Nat) : State :=
  if pageUp s p then
    let h := s.page p
    let s' := s.modPage p (hdrSetEvt s.tick n)
    if !h.evt.getLsbD n && h.evtEn.getLsbD n then callMsg s' h.vec else s'
  else s

/-- The message that a write to EVT, EVT_EN or EVT_VEC calls for (R52). -/
def evtWritten (s : State) (p : Page) : State :=
  if (s.page p).evt &&& (s.page p).evtEn = 0 then s else callMsg s (s.page p).vec

/-- Event bits of every page header (EVT). -/
def evtTaskEmpty : Nat := 27
def evtStale : Nat := 28
def evtAborted : Nat := 29
def evtClamped : Nat := 30
def evtDone : Nat := 31

/-! ## Sources of the Transom fabric (R272, R273) -/

def chanSid (g : ChanNo) (code : Nat) : BitVec 16 := BitVec.ofNat 16 (g.val * 16 + code)
def baySid (b : BayNo) (code : Nat) : BitVec 16 := BitVec.ofNat 16 (0x2000 + b.val * 16 + code)
def devSid (code : Nat) : BitVec 16 := BitVec.ofNat 16 (0x4000 + code)
def folioSid (f : Fin 64) (code : Nat) : BitVec 16 := BitVec.ofNat 16 (0x6000 + f.val * 16 + code)

/-- A source is raised at the present tick and enters its lines at tick `at_`. Raised by the direct effect of a
task activation, it carries the activation's depth (R280). While PD3 is off no event is carried (R286). -/
def raiseAt (at_ : Nat) (s : State) (sid : BitVec 16) : State :=
  if domUp s 3 then
    s.modTransom fun x =>
      { x with raised := x.raised ++ [{ sid := sid, tick := s.tick, enterAt := at_, depth := s.actDepth }] }
  else s

/-- The arrival phase of an asynchronous event: the first or second tick after it, as a free value says. (DESIGN
CHOICE: log entry 26) -/
def asyncTick (s : State) : Nat := s.tick + (if (freeNow s).getLsbD 0 then 2 else 1)

/-- A source raised by timebase logic, one raised asynchronously, and one that enters at its own tick (R278). -/
def raise (s : State) (sid : BitVec 16) : State := raiseAt (s.tick + 2) s sid
/-- (DESIGN CHOICE: log entry 26) -/
def raiseAsync (s : State) (sid : BitVec 16) : State := raiseAt (asyncTick s) (takeFree s) sid
def raiseNow (s : State) (sid : BitVec 16) : State := raiseAt s.tick s sid

/-! ## Detections (R421, R422, R425) -/

/-- A detection decided at the present tick, for the fault log to take. -/
def detectFull (s : State) (p : Page) (unit code attempts cls : Nat) (abandoned : Bool) : State :=
  let e : LogEntry :=
    { time := s.time, page := BitVec.ofNat 12 (pageBase p / 0x1000), unit := BitVec.ofNat 16 unit
      code := BitVec.ofNat 8 code, attempts := BitVec.ofNat 2 attempts, cls := BitVec.ofNat 2 cls
      abandoned := abandoned, seq := 0 }
  s.modMgmt fun m => { m with detected := m.detected ++ [(s.tick, e)] }

def detect (s : State) (p : Page) (unit code attempts cls : Nat) : State :=
  detectFull s p unit code attempts cls false

/-- Classes of a detection (R421). -/
def clsTransient : Nat := 0
def clsLasting : Nat := 1
def clsNotice : Nat := 2

/-! ## Queues without a page (R16, R17, R288, R291) -/

/-- A word enters a queue that holds `cap`; a full queue loses its oldest word. (DEDUCED: log entry 78) -/
def queuePut {α : Type} (cap : Nat) (l : List α) (x : α) : List α × Option α :=
  if l.length < cap then (l ++ [x], none) else (l.drop 1 ++ [x], l.head?)

/-- The words of a Shelf queue, the boxcar pairs of a loop-feed queue and the results of a Catalogue queue, of two
words each. (DEDUCED: log entry 78) -/
def queueWords : Nat := 2048
/-- (DEDUCED: log entry 78) -/
def queuePairs : Nat := 1024

/-- A lost word, and an underrun, of a bay's queue without a page, by its UNIT in R422. (DEDUCED: log entry 78) -/
def queueLost (b : BayNo) (unit : Nat) (s : State) : State := detect s (.bay b) unit 0x10 0 clsLasting
/-- (DEDUCED: log entry 78) -/
def queueUnderrun (b : BayNo) (unit : Nat) (s : State) : State := detect s (.bay b) unit 0x11 0 clsNotice

/-! ## What a later request of the tick discards (R103, R322) -/

/-- The segment that a discarded task appended to a list is taken out. -/
def cutSegment {α : Type} (m n : Nat) (l : List α) : List α := l.take m ++ l.drop n

/-! ## Small arithmetic of counters -/

/-- A counter that stops at its largest value. -/
def satInc {n : Nat} (x : BitVec n) : BitVec n := if x = BitVec.allOnes n then x else x + 1

/-- The step was taken by a task activation of this depth, if it was (R280). (DEDUCED: log entry 118) -/
def viaDepth (v : Via) : Option Nat :=
  match v with
  | .write => none
  | .task d => some d

/-- `f` carried out as the effect of a request that came by `v`: what it raises in this tick carries the depth of the
activation (R280). (DEDUCED: log entry 118) -/
def withVia (v : Via) (f : State → State) (s : State) : State :=
  let old := s.actDepth
  let s' := f { s with actDepth := viaDepth v }
  { s' with actDepth := old }

/-- An activation of a task input whose domain is off, or that a reset in progress holds, is discarded and counted
(R286, R431). (DEDUCED: log entries 15, 73) -/
def pdDrop (s : State) : State :=
  if domUp s 3 then
    setEvt (s.modTransom fun x => { x with pdDrop := x.pdDrop + 1 }) .transom 4
  else s

/-- A BAR0 access is refused: DEV_ACC records it unless it still holds an earlier one, and ACCESS is set (R28, R35).
Causes: 1 unmapped, 2 size, alignment or byte enables, 3 power domain off or in reset. (DEDUCED: log entry 15) -/
def refuseAccess (addr cause : Nat) (write : Bool) (s : State) : State :=
  if s.power.powered then
    let s1 :=
      if (s.page .device).evt.getLsbD 0 then s
      else
        s.modMgmt fun m =>
          { m with accAddr := BitVec.ofNat 24 addr, accCause := BitVec.ofNat 4 cause, accWrite := write }
    setEvt s1 .device 0
  else s

/-- A refused read completes with data 0 for each doubleword (R28). -/
def refuseRead (addr cause n : Nat) (s : State) : State :=
  if s.power.powered then
    (refuseAccess addr cause false s).modOut fun o => { o with read := List.replicate n 0 }
  else s

/-- Words of a read that completes. (DESIGN CHOICE: log entry 12) -/
def answerRead (l : List Word) (s : State) : State := s.modOut fun o => { o with read := l }

/-! ## Pairs of words (R54 to R58) -/

/-- A pair that no read has armed and whose low word nothing holds (R57). -/
def PairSt.blank (off : Nat) : PairSt := { off := off, shadow := 0, armed := false, held := none }

/-- The pair at a low-word offset. -/
def pairFind (l : List PairSt) (off : Nat) : PairSt :=
  match l with
  | [] => PairSt.blank off
  | x :: rest => if x.off = off then x else pairFind rest off

/-- The list with a pair, in rising offsets; a blank pair is not listed. -/
def pairPut (x : PairSt) (l : List PairSt) : List PairSt :=
  match l with
  | [] => if x = PairSt.blank x.off then [] else [x]
  | y :: rest =>
    if y.off = x.off then (if x = PairSt.blank x.off then rest else x :: rest)
    else if x.off < y.off then (if x = PairSt.blank x.off then y :: rest else x :: y :: rest)
    else y :: pairPut x rest

def pairAt (s : State) (p : Page) (off : Nat) : PairSt := pairFind (s.page p).pairs off

def putPair (p : Page) (x : PairSt) (s : State) : State := s.modPage p fun h => { h with pairs := pairPut x h.pairs }

/-- A 64-bit write takes the place of a held low word (R58). -/
def dropHeld (p : Page) (off : Nat) (s : State) : State := putPair p { pairAt s p off with held := none } s

/-- The request reaches the device: a BAR0 access needs the link (R503). (DEDUCED: log entry 14) -/
def reaches (v : Via) (s : State) : Bool :=
  match v with
  | .write => s.host.linkUp
  | .task _ => true

/-- A request that came by `v` to the register at offset `off` of page `p`: it is carried out unless the page's domain
is off or in reset. Then a write is refused (R28, R431), and an activation is dropped (R286, R431). (DEDUCED: log
entries 14, 15) -/
def request (p : Page) (off : Nat) (v : Via) (f : State → State) (s : State) : State :=
  if !reaches v s then s
  else if pageOpen s p then withVia v f s
  else
    match v with
    | .write => refuseAccess (pageBase p + off) 3 true s
    | .task _ => pdDrop s

end Sys2Proof.Machine
end

