-- ==== Sys2Proof/Machine/Catalogue.lean ====
section
/-! DEFINITION. The Catalogue monitor converters: slots, results, the cross-check, injections and the hold by
Accession (chapter 9). -/

namespace Sys2Proof.Machine

/-! ## Configuration (R226 to R228, R231) -/

def Cat.conv (c : Cat) (k : Conv) : CatConv :=
  match k with
  | .a => c.a
  | .b => c.b

def State.catConv (s : State) (b : BayNo) (k : Conv) : CatConv := (s.bay b).cat.conv k

def State.modConv (s : State) (b : BayNo) (k : Conv) (f : CatConv → CatConv) : State :=
  s.modCat b fun c =>
    match k with
    | .a => { c with a := f c.a }
    | .b => { c with b := f c.b }

/-- The other converter. -/
def otherConv (k : Conv) : Conv :=
  match k with
  | .a => .b
  | .b => .a

/-- LEN of a converter. -/
def catLen (s : State) (b : BayNo) (k : Conv) : Nat :=
  live s (.catalogue b) (match k with | .a => 0x040 | .b => 0x044) 0 5

/-- Offset of an entry's CAT_ENT_CFG. -/
def entOff (k : Conv) (n : Fin 16) : Nat := (match k with | .a => 0x100 | .b => 0x180) + 8 * n.val

def entCfg (s : State) (b : BayNo) (k : Conv) (n : Fin 16) : Word := liveWord s (.catalogue b) (entOff k n)
def entCorr (s : State) (b : BayNo) (k : Conv) (n : Fin 16) : Word := liveWord s (.catalogue b) (entOff k n + 4)

/-- The shared entry of a converter (R231). -/
def sharedEntry (s : State) (b : BayNo) (k : Conv) : Option (Fin 16) :=
  (allFin 16).find? fun n => decide (n.val < catLen s b k) && (entCfg s b k n).getLsbD 15

/-- Both shared entries exist and have the same SRC and GAIN. -/
def checkOn (s : State) (b : BayNo) : Bool :=
  match sharedEntry s b .a, sharedEntry s b .b with
  | some i, some j =>
    field (entCfg s b .a i) 0 8 == field (entCfg s b .b j) 0 8 &&
    field (entCfg s b .a i) 12 2 == field (entCfg s b .b j) 12 2
  | _, _ => false

/-- STAT.XCFG. -/
def checkUnpaired (s : State) (b : BayNo) : Bool :=
  !checkOn s b && ((sharedEntry s b .a).isSome || (sharedEntry s b .b).isSome)

def xTol (s : State) (b : BayNo) : Nat := live s (.catalogue b) 0x048 0 16
def xRetry (s : State) (b : BayNo) : Nat := live s (.catalogue b) 0x048 16 2
def xAge (s : State) (b : BayNo) : Nat := 32 * live s (.catalogue b) 0x048 20 12

/-- S of a SAMPLE code. -/
def sampleTicks (cfg : Word) : Nat := 32 * 2 ^ field cfg 8 3

/-- Event bits and source codes of a converter. -/
def injEvt (k : Conv) : Nat := match k with | .a => 2 | .b => 3
def injSid (k : Conv) : Nat := match k with | .a => 3 | .b => 4
def wrapSid (k : Conv) : Nat := match k with | .a => 1 | .b => 2

/-! ## The cross-check (R232 to R235) -/

/-- A pair passes. -/
def pairPass (tol : Nat) (x y : CatRes) : Bool :=
  !x.ovr && !y.ovr && decide ((x.value.toInt - y.value.toInt).natAbs ≤ tol)

/-- Both results of a pair by converter, for CAT_XCHK_LAST. -/
def showPair (b : BayNo) (k : Conv) (mine theirs : CatRes) (s : State) : State :=
  s.modCat b fun c =>
    match k with
    | .a => { c with lastA := mine.value, lastB := theirs.value }
    | .b => { c with lastA := theirs.value, lastB := mine.value }

/-- The pair is counted as unpaired, and no retry is pending. (DEDUCED: log entry 64) -/
def pairUnpaired (b : BayNo) (s : State) : State :=
  s.modCat b fun c =>
    { c with
      unpaired := c.unpaired + 1, retryPairs := 0, a := { c.a with retryReq := none, retryRes := none }
      b := { c.b with retryReq := none, retryRes := none } }

/-- Retry pair number `n` is called for; while Accession holds B it is abandoned (R233). (DEDUCED: log entry 64) -/
def callRetry (b : BayNo) (n : Nat) (s : State) : State :=
  if (s.bay b).cat.held then pairUnpaired b s
  else
    s.modCat b fun c =>
      { c with
        retryPairs := n, a := { c.a with retryReq := some s.tick, retryRes := none }
        b := { c.b with retryReq := some s.tick, retryRes := none } }

/-- A shared result of converter `k` is ready (R232). -/
def judgeShared (b : BayNo) (k : Conv) (mine : CatRes) (start : Nat) (s : State) : State :=
  if (s.bay b).cat.retryPairs ≠ 0 ∨ !checkOn s b then s
  else
    match (s.catConv b (otherConv k)).shared with
    | none => pairUnpaired b s
    | some (theirs, other) =>
      if xAge s b < start - other + (other - start) then pairUnpaired b s
      else
        let s1 := showPair b k mine theirs s
        if mine.ovr && theirs.ovr then pairUnpaired b s1
        else if pairPass (xTol s b) mine theirs then s1.modCat b fun c => { c with pass := c.pass + 1 }
        else callRetry b 1 (setEvt s1 (.catalogue b) 0)

/-- The last retry pair has failed (R234, R235). -/
def lastingMismatch (b : BayNo) (s : State) : State :=
  let s1 := s.modCat b fun c =>
    { c with
      lasting := c.lasting + 1, retryPairs := 0, xfault := true, a := { c.a with retryRes := none }
      b := { c.b with retryRes := none } }
  if (s.bay b).cat.xfault then s1
  else
    detect (raise (setEvt s1 (.catalogue b) 1) (baySid b 5)) (.catalogue b) 0 0x30 (s.bay b).cat.retryPairs
      clsLasting

/-- Both results of a retry pair are ready (R234). (DEDUCED: log entry 64) -/
def judgeRetry (b : BayNo) (x y : CatRes) (s0 : State) : State :=
  let s := showPair b .a x y s0
  let n := (s.bay b).cat.retryPairs
  if pairPass (xTol s b) x y then
    let s1 := s.modCat b fun c =>
      { c with
        transient := c.transient + 1, retryPairs := 0, a := { c.a with retryRes := none }
        b := { c.b with retryRes := none } }
    detect s1 (.catalogue b) 0 0x30 n clsTransient
  else if n < xRetry s b then callRetry b (n + 1) s
  else lastingMismatch b s

/-- A retry result waits for its partner. -/
def retryReady (b : BayNo) (k : Conv) (res : CatRes) (s : State) : State :=
  let s1 := s.modConv b k fun c => { c with retryRes := some res }
  match (s1.bay b).cat.a.retryRes, (s1.bay b).cat.b.retryRes with
  | some x, some y => judgeRetry b x y s1
  | _, _ => s1

/-! ## Results (R229, R230) -/

/-- The corrected result of a raw code. (DEDUCED: log entry 64) -/
def catResult (k : Conv) (sl : CatSlot) (raw : BitVec 16) : CatRes :=
  let x : Int := (raw.toNat : Int) - 32768
  let y := (x * (field sl.corr 0 16 : Nat) + 2 ^ 13) / 2 ^ 14 + (hi16 sl.corr).toInt
  let r := sat y (-32768) 32767
  { value := BitVec.ofInt 16 r, ovr := raw == 0 || raw == 0xFFFF, clip := decide (r ≠ y), inj := sl.inj
    precal := sl.precal, retry := sl.retry, entry := sl.entry, conv := k
    time := BitVec.ofNat 32 (sl.startTime.toNat / 32) }

/-- A result enters the bay's result queue (R230); a full queue loses the oldest (R17). -/
def resultPut (b : BayNo) (res : CatRes) (s : State) : State :=
  let q := queuePut queuePairs (s.bay b).cat.queue res
  let s1 := s.modCat b fun c => { c with queue := q.1 }
  if q.2.isSome then queueLost b 4 s1 else s1

/-- A slot's conversion completes. -/
def slotDone (b : BayNo) (k : Conv) (sl : CatSlot) (raw : BitVec 16) (s : State) : State :=
  let res := catResult k sl raw
  let s1 := resultPut b res (s.modConv b k fun c =>
    { c with
      slot := none, shared := if sl.shared then some (res, sl.start) else c.shared
      last := if sl.inj || sl.retry || c.startReq.isSome then c.last else some sl.entry })
  if sl.inj then raise (setEvt s1 (.catalogue b) (injEvt k)) (baySid b (injSid k))
  else if sl.retry then retryReady b k res s1
  else if sl.shared then judgeShared b k res sl.start s1
  else s1

/-! ## Entry boundaries (R225, R226, R233, R236, R238, R239) -/

/-- A slot begins. -/
def slotBegin (b : BayNo) (k : Conv) (n : Fin 16) (shared inj retry precal : Bool) (s : State) : State :=
  s.modConv b k fun c =>
    { c with
      slot := some
        { entry := n, start := s.tick, startTime := s.time, cfg := entCfg s b k n, corr := entCorr s b k n
          shared := shared, inj := inj, retry := retry, precal := precal } }

/-- The entry that the sequence runs at a boundary, and whether it wraps. (DEDUCED: log entry 63) -/
def seqNext (c : CatConv) (len : Nat) : Fin 16 × Bool :=
  match c.last with
  | none => (0, false)
  | some e => if h : e.val + 1 < len ∧ e.val + 1 < 16 then (⟨e.val + 1, h.2⟩, false) else (0, true)

/-- The next entry of the sequence begins. -/
def seqBegin (b : BayNo) (k : Conv) (s : State) : State :=
  let (n, wrap) := seqNext (s.catConv b k) (catLen s b k)
  let s1 := slotBegin b k n (sharedEntry s b k == some n) false false false
    (s.modConv b k fun c => { c with startReq := none })
  if wrap then raise s1 (baySid b (wrapSid k)) else s1

/-- A pending retry begins; `retryGone` has seen to it that there is a shared entry. -/
def retryBegin (b : BayNo) (k : Conv) (s : State) : State :=
  slotBegin b k ((sharedEntry s b k).getD 0) false false true false (s.modConv b k fun c => { c with retryReq := none })

/-- An injected conversion begins. -/
def injBegin (b : BayNo) (k : Conv) (precal : Bool) (s : State) : State :=
  let n := (s.catConv b k).injEntry
  slotBegin b k ⟨n.toNat, n.isLt⟩ false true false precal (s.modConv b k fun c => { c with injReq := none })

/-- A request at least one tick old. -/
def dueAt (s : State) (r : Option Nat) : Bool := match r with | some t => after s t | none => false

/-- A retry that is due finds no shared entry any more, and is abandoned. (DEDUCED: log entry 64) -/
def retryGone (b : BayNo) (k : Conv) (s : State) : State :=
  if dueAt s (s.catConv b k).retryReq && (sharedEntry s b k).isNone then pairUnpaired b s else s

/-- Accession has asked for Catalogue B, and holds it once no retry and no injection pends; one that pends and is not
due before the next boundary keeps B from its sequence until then (R238). (DEDUCED: log entry 137) -/
def holdTurn (b : BayNo) (s : State) : State :=
  let c := (s.bay b).cat
  if c.b.retryReq.isSome || c.b.injReq.isSome then s
  else s.modCat b fun c => { c with holdReq := none, held := true }

/-- What an entry boundary begins: a retry, then an injection, then the hold, then the sequence. (DEDUCED: log entry
137) -/
def boundaryTurn (b : BayNo) (k : Conv) (s : State) : State :=
  let c := s.catConv b k
  let asked := k == .b && (s.bay b).cat.holdReq.isSome
  if dueAt s c.retryReq then retryBegin b k s
  else if dueAt s c.injReq then injBegin b k asked s
  else if asked then holdTurn b s
  else if catLen s b k = 0 ∨ (c.startReq.isSome ∧ !dueAt s c.startReq) then s
  else seqBegin b k s

/-- An entry boundary of a converter with no slot in progress, which always falls at a multiple of 32 (R225).
(DEDUCED: log entry 63) -/
def catBoundary (b : BayNo) (k : Conv) (s : State) : State :=
  if !onMult s 32 || (k == .b && (s.bay b).cat.held) then s else boundaryTurn b k (retryGone b k s)

/-- CAT_SLOT_END: the slot in progress completes, and its tick is the next entry boundary; when a step of system time
has moved it off the multiples of 32, the boundary is the next of these. With no slot in progress the command is an
entry boundary alone. (DEDUCED: log entries 63, 78) -/
def catSlotEnd (b : BayNo) (k : Conv) (raw : BitVec 16) (s : State) : State :=
  if !pageUp s (.catalogue b) then s
  else
    match (s.catConv b k).slot with
    | some sl =>
      if sinceIs s sl.start (sampleTicks sl.cfg + 128) then catBoundary b k (slotDone b k sl raw s) else s
    | none => catBoundary b k s

/-- (DESIGN CHOICE: log entry 3) -/
def execCatSlotEnd (b : BayNo) (k : Conv) (raw : BitVec 16) (s : State) : Ret := .next (catSlotEnd b k raw s)

/-- CAT_RESULT_POST: the core takes a result from the queue; one that a newer result of the same converter follows is
not posted. -/
def catResultPost (b : BayNo) (s : State) : State :=
  match (s.bay b).cat.queue with
  | [] => s
  | r :: rest =>
    if !pageUp s (.catalogue b) then s
    else
      let s1 := s.modCat b fun c => { c with queue := rest }
      if rest.any fun x => x.conv == r.conv then
        setEvt (s1.modConv b r.conv fun c => { c with late := c.late + 1 }) (.catalogue b) 5
      else if r.inj then s1.modConv b r.conv fun c => { c with injResult := some r }
      else s1.modConv b r.conv fun c => { c with results := vset c.results r.entry (some r) }

/-- (DESIGN CHOICE: log entry 4) -/
def execCatResultPost (b : BayNo) (s : State) : Ret := .next (catResultPost b s)

/-! ## Requests (R235 to R239) -/

/-- CAT_INJ_A and CAT_INJ_B. -/
def injOff (k : Conv) : Nat :=
  match k with
  | .a => 0x058
  | .b => 0x05C

/-- An injection request. -/
def injectReq (b : BayNo) (k : Conv) (s : State) : State :=
  if (s.catConv b k).injReq.isSome then setEvt s (.catalogue b) 4
  else s.modConv b k fun c => { c with injReq := some s.tick }

def execInject (b : BayNo) (k : Conv) (via : Via) (s : State) : Ret :=
  .next (request (.catalogue b) (injOff k) via (injectReq b k) s)

/-- CAT_XCHK_CTL.RESET. -/
def xchkReset (b : BayNo) (s : State) : State := s.modCat b fun c => { c with xfault := false }

def execXchkReset (b : BayNo) (s : State) : Ret := .next (request (.catalogue b) 0x054 .write (xchkReset b) s)

/-- Accession asks for Catalogue B, and releases it. (DEDUCED: log entry 137) -/
def catAsk (b : BayNo) (s : State) : State :=
  s.modCat b fun c => if c.held then c else { c with holdReq := some s.tick }

/-- (DEDUCED: log entry 137) -/
def catRelease (b : BayNo) (s : State) : State := s.modCat b fun c => { c with holdReq := none, held := false }

/-- A commit changes LEN of a converter from 0 (R226). (DEDUCED: log entry 63) -/
def catStart (b : BayNo) (k : Conv) (s : State) : State :=
  s.modConv b k fun c => { c with last := none, startReq := some s.tick }

end Sys2Proof.Machine
end

