-- ==== Sys2Proof/Machine/Ledger.lean ====
section
/-! DEFINITION. The Ledger code RS(36,32) over GF(2^8) and the tag code of a line (chapter 14, R343 to R347),
and the CRC-32 of chapter 10. -/

namespace Sys2Proof.Machine

/-! ## GF(2^8) with the polynomial x^8 + x^4 + x^3 + x^2 + 1 (R343) -/

/-- Multiplication by α = 0x02. -/
def gfDouble (a : Byte) : Byte := if a.getLsbD 7 then (a <<< 1) ^^^ 0x1D else a <<< 1

/-- The product over the low `n` bits of `b`. -/
def gfMulBits (n : Nat) (a b : Byte) : Byte :=
  match n with
  | 0 => 0
  | k + 1 => (if b.getLsbD 0 then a else 0) ^^^ gfMulBits k (gfDouble a) (b >>> 1)

def gfMul (a b : Byte) : Byte := gfMulBits 8 a b

/-- α^n. -/
def gfPow (n : Nat) : Byte :=
  match n with
  | 0 => 1
  | k + 1 => gfDouble (gfPow k)

/-! ## Encoding (R343) -/

/-- The four check bytes c_0 to c_3, the coefficients of x^3 to x^0. -/
abbrev Check := Vector Byte 4

/-- One data byte into the division by g(x) = (x + 1)(x + α)(x + α²)(x + α³) = x^4 + 0x0F x^3 + 0x36 x^2 +
0x78 x + 0x40. -/
def rsStep (r : Check) (d : Byte) : Check :=
  let f := d ^^^ r[0]
  #v[r[1] ^^^ gfMul f 0x0F, r[2] ^^^ gfMul f 0x36, r[3] ^^^ gfMul f 0x78, gfMul f 0x40]

/-- The check bytes of 32 data bytes. -/
def rsCheck (data : List Byte) : Check := data.foldl rsStep #v[0, 0, 0, 0]

/-- The ledger word of a block: data bytes at positions 35 to 4 and check bytes at 3 to 0, those of a poison block
complemented (R347). -/
def ledgerWord (data : List Byte) (poison : Bool) : List Byte :=
  let c := (rsCheck data).toList
  data ++ (if poison then c.map (fun x => ~~~x) else c)

/-! ## Decoding (R344) -/

/-- A word with an error pattern exclusive-ored on it; position p is place 35 − p of the list. -/
def withErrs (w : List Byte) (e : SymErrs) : List Byte :=
  e.foldl (fun w x => w.mapIdx fun i b => if i + x.1 = 35 then b ^^^ x.2 else b) w

/-- S_j, the received polynomial at α^j. -/
def syndrome (w : List Byte) (j : Nat) : Byte := w.foldl (fun a c => gfMul a (gfPow j) ^^^ c) 0

def syndromes (w : List Byte) : List Byte := (List.range 4).map (syndrome w)

/-- The syndromes of one symbol in error: value `v` at position `p`. -/
def oneErrSyndromes (v : Byte) (p : Nat) : List Byte := (List.range 4).map fun j => gfMul v (gfPow (p * j))

/-- The syndromes of the poison mark: all four check bytes complemented. -/
def poisonSyndromes : List Byte :=
  syndromes (List.replicate 32 0 ++ List.replicate 4 0xFF)

/-- What decoding found. -/
inductive Decoded where
  | clean
  | corrected
  | poison
  | uncorrectable
deriving DecidableEq, Repr

/-- The position of a single error with the given syndromes, if one in `n` positions has them. -/
def findErr (s : List Byte) (n : Nat) : Option Nat :=
  (List.range n).find? fun p => decide (oneErrSyndromes (s.headD 0) p = s)

/-- Decoding of a received word: the outcome, and the 32 data bytes after any correction (R344). -/
def ledgerDecode (w : List Byte) : Decoded × List Byte :=
  let s := syndromes w
  if s = [0, 0, 0, 0] then (.clean, w.take 32)
  else if s = poisonSyndromes then (.poison, w.take 32)
  else
    match findErr s 36 with
    | some p => (.corrected, (withErrs w [(p, s.headD 0)]).take 32)
    | none => (.uncorrectable, w.take 32)

/-- A block that travels with an error pattern and is decoded on arrival. -/
def ledgerArrive (data : List Byte) (poison : Bool) (e : SymErrs) : Decoded × List Byte :=
  ledgerDecode (withErrs (ledgerWord data poison) e)

/-! ## The tag (R346) -/

def bitCount (n width : Nat) : Nat := ((List.range width).filter fun i => n.testBit i).length

/-- The columns of the 56 tag bits: the 8-bit values with exactly three bits set, rising. -/
def tagColumns : List Byte := ((List.range 256).filter fun n => bitCount n 8 == 3).map (BitVec.ofNat 8)

/-- The check byte H of a tag. -/
def tagCheck (t : BitVec 56) : Byte :=
  (tagColumns.zipIdx.filter fun x => t.getLsbD x.2).foldl (fun h x => h ^^^ x.1) 0

/-- A tag as it reads with an error pattern on its bits and on H: the outcome and the tag. -/
def tagArrive (t e : BitVec 56) (he : Byte) : Decoded × BitVec 56 :=
  let t' := t ^^^ e
  let s := tagCheck t ^^^ he ^^^ tagCheck t'
  if s = 0 then (.clean, t')
  else
    match tagColumns.idxOf? s with
    | some j => (.corrected, t' ^^^ ((1 : BitVec 56) <<< j))
    | none => if bitCount s.toNat 8 = 1 then (.corrected, t') else (.uncorrectable, t')

/-! ## CRC-32 (chapter 10, "The journal") -/

def crcBit (c : Word) : Word := if c.getLsbD 0 then (c >>> 1) ^^^ 0xEDB88320 else c >>> 1

def crcByte (c : Word) (b : Byte) : Word :=
  crcBit (crcBit (crcBit (crcBit (crcBit (crcBit (crcBit (crcBit (c ^^^ b.zeroExtend 32))))))))

def crc32 (l : List Byte) : Word := ~~~(l.foldl crcByte 0xFFFFFFFF)

/-! ## Little-endian bytes -/

/-- The low `n` bytes of a number, lowest first. -/
def leBytes (n : Nat) (x : Nat) : List Byte := (List.range n).map fun i => BitVec.ofNat 8 (x / 256 ^ i)

/-- The number that bytes spell, lowest first. -/
def leNat (l : List Byte) : Nat := l.foldr (fun b n => b.toNat + 256 * n) 0

end Sys2Proof.Machine
end

