-- ==== Sys2Proof/Machine/Flash.lean ====
section
/-! DEFINITION. The boot flash: its bytes, the order of its operations, and the host operations of DEV_FL_CTL
(chapter 18, R450 to R456). -/

namespace Sys2Proof.Machine

/-! ## The array -/

/-- An erased flash byte reads 0xFF. (DESIGN CHOICE: log entry 8) -/
def flashByte (f : Flash) (a : Nat) : Byte := sparseGet (fun _ => 0xFF) f.bytes a

def flashBytes (f : Flash) (a n : Nat) : List Byte := sparseGetAll (fun _ => 0xFF) f.bytes a n

/-- Little-endian word at a flash address. -/
def flashNat (f : Flash) (a n : Nat) : Nat := leNat (flashBytes f a n)

def flashPut (f : Flash) (a : Nat) (bytes : List Byte) : Flash :=
  { f with bytes := sparseSetAll (fun _ => 0xFF) f.bytes a bytes }

/-- Programming clears bits and sets none. (PRESUMED: log entry 113) -/
def flashProgram (f : Flash) (a : Nat) (bytes : List Byte) : Flash :=
  flashPut f a ((bytes.zip (flashBytes f a bytes.length)).map fun x => x.1 &&& x.2)

/-- Erased bytes `a` to `a + n − 1`. (PRESUMED: log entry 113) -/
def flashErased (f : Flash) (a n : Nat) : Flash :=
  { f with bytes := f.bytes.filter fun x => decide (x.1 < a) || decide (a + n ≤ x.1) }

/-- Capacity in bytes, 0 with no flash. -/
def flashSize (f : Flash) : Nat := ((f.params).map fun p => 2 ^ p.size).getD 0

/-- The canonical form of the array. -/
def flashWf (f : Flash) : Bool := sparseWf (fun _ => (0xFF : Byte)) f.bytes

/-! ## The order of operations (R455) -/

/-- An operation begins. A store notes the system time at which it began (R262). -/
def flashBegin (s : State) (u : FlashUse) : State :=
  let s1 := s.modFlash fun f => { f with use := u }
  if u = .journal ∧ s.acc.op = .store then s1.modAcc fun a => { a with storeTime := s.time } else s1

/-- An operation is requested: it begins when the flash is free, and waits otherwise. -/
def flashRequest (s : State) (u : FlashUse) : State :=
  if s.flash.use = .free then flashBegin s u else s.modFlash fun f => { f with queue := f.queue ++ [u] }

/-- The operation in progress ends, and the next one begins. -/
def flashFree (s : State) : State :=
  match s.flash.queue with
  | [] => s.modFlash fun f => { f with use := .free }
  | u :: rest => flashBegin (s.modFlash fun f => { f with queue := rest }) u

/-! ## Host operations (R456) -/

def isHostUse (u : FlashUse) : Bool :=
  match u with
  | .host _ _ => true
  | .free | .boot | .journal | .cache => false

/-- LEN of DEV_FL_CTL: 0 is taken as 256. -/
def flLen (ctl : Word) : Nat := if field ctl 8 9 = 0 then 256 else field ctl 8 9

/-- The erase type that ERASE names, 0 where the flash has none. (PRESUMED: log entry 113) -/
def eraseSize (f : Flash) (ctl : Word) : Nat :=
  match f.params with
  | some p => p.erase[field ctl 2 2]?.getD 0
  | none => 0

/-- `n` free values as bytes, and the state that has taken them. (DESIGN CHOICE: log entry 11) -/
def freeBytes (s : State) (n : Nat) : List Byte :=
  (List.range n).map fun i => (Config.freeValue (s.free + i)).setWidth 8

/-- (DESIGN CHOICE: log entry 11) -/
def takeFrees (s : State) (n : Nat) : State := { s with free := s.free + n }

/-- The operation crosses a page or an erase unit, or the flash has no such operation. (DESIGN CHOICE: log entry 112)
-/
def flBad (f : Flash) (ctl addr : Word) : Bool :=
  match f.params with
  | none => true
  | some p =>
    let crosses (unit : Nat) : Bool :=
      unit == 0 || decide (addr.toNat / unit ≠ (addr.toNat + flLen ctl - 1) / unit)
    match field ctl 0 2 with
    | 0 => false
    | 1 => crosses p.pageSize
    | 2 => crosses (eraseSize f ctl)
    | _ => true

/-- The bytes of a list as they lie in the buffer. (DESIGN CHOICE: log entry 112) -/
def bufWith (buf : Vector Byte 256) (l : List Byte) : Vector Byte 256 :=
  Vector.ofFn fun i : Fin 256 => l[i.val]?.getD buf[i]

/-- The effect of a host operation that the flash carried out. (DESIGN CHOICE: log entry 112) -/
def flCarryOut (s : State) (ctl addr : Word) : State :=
  let n := flLen ctl
  let a := addr.toNat
  match field ctl 0 2 with
  | 0 =>
    let known := flashBytes s.flash a n
    let open_ := freeBytes s n
    let data := (List.range n).map fun i =>
      if a + i < flashSize s.flash then known[i]?.getD 0 else open_[i]?.getD 0
    (takeFrees s n).modFlash fun f => { f with buf := bufWith f.buf data }
  | 1 =>
    let inside := min n (flashSize s.flash - a)
    s.modFlash fun f => flashProgram f a (f.buf.toList.take inside)
  | _ =>
    let u := eraseSize s.flash ctl
    s.modFlash fun f => flashErased f (a / u * u) u

/-- What a failed operation leaves in the bytes that it names is open. (DESIGN CHOICE: log entry 112) -/
def flFailed (s : State) (ctl addr : Word) : State :=
  let n := flLen ctl
  if s.flash.params.isNone then s
  else
    match field ctl 0 2 with
    | 0 => (takeFrees s n).modFlash fun f => { f with buf := bufWith f.buf (freeBytes s n) }
    | 1 => (takeFrees s n).modFlash fun f => flashPut f addr.toNat (freeBytes s n)
    | 2 =>
      let u := eraseSize s.flash ctl
      if u = 0 then s else (takeFrees s u).modFlash fun f => flashPut f (addr.toNat / u * u) (freeBytes s u)
    | _ => s

/-- DEV_FL_CTL written with GO at 1: an operation with the fields as they stand (R456). -/
def flGo (s : State) : State := flashRequest s (.host s.flash.ctl s.flash.addr)

/-- DEV_FL_CTL's fields with an OP. -/
def flSetOp (op : Nat) (s : State) : State :=
  s.modFlash fun f => { f with ctl := setField f.ctl 0 2 op }

/-- FLASH_READ, FLASH_PROGRAM and FLASH_ERASE: DEV_FL_CTL is written with GO and an OP, its other fields and
DEV_FL_ADDR as they stand. -/
def execFlashRead (s : State) : Ret := .next (request .device 0x0E0 .write (fun s => flGo (flSetOp 0 s)) s)

def execFlashProgram (s : State) : Ret := .next (request .device 0x0E0 .write (fun s => flGo (flSetOp 1 s)) s)

def execFlashErase (s : State) : Ret := .next (request .device 0x0E0 .write (fun s => flGo (flSetOp 2 s)) s)

/-- FL_DONE: the host operation in progress ends (R456). -/
def flDone (failed : Bool) (s : State) : State :=
  match s.flash.use with
  | .host ctl addr =>
    let bad := failed || flBad s.flash ctl addr
    let s1 := if bad then flFailed s ctl addr else flCarryOut s ctl addr
    setEvt (flashFree (s1.modFlash fun f => { f with err := bad })) .device 9
  | .free | .boot | .journal | .cache => s

def execFlDone (failed : Bool) (s : State) : Ret := .next (flDone failed s)

end Sys2Proof.Machine
end

