-- ==== Sys2Proof/Machine/Memory.lean ====
section
/-! DEFINITION. DRAM as Stacks lays it out: the address map, reading and writing lines, poison and tags
(chapter 14, R339 to R350). -/

namespace Sys2Proof.Machine

/-! ## The map (R338 to R342) -/

/-- Logical ranks K of a DIMM. -/
def dimmRanks (d : Dimm) : Nat := d.packageRanks * d.stack

/-- Capacity of a DIMM in GB (R338). -/
def dimmGb (d : Dimm) : Nat := if d.width = 0 then 0 else 2 * dimmRanks d * (32 / d.width) * d.density / 8

/-- Stacks accepts the DIMM (R337, R338). -/
def dimmOk (d : Dimm) : Bool :=
  d.registered && d.eccWidth40 && (d.width == 4 || d.width == 8) && (d.density == 16 || d.density == 32) &&
  (d.packageRanks == 1 || d.packageRanks == 2) &&
  (d.stack == 1 || ((d.stack == 2 || d.stack == 4) && d.width == 4)) &&
  (dimmRanks d == 1 || dimmRanks d == 2 || dimmRanks d == 4) && decide (16 ≤ dimmGb d) && decide (dimmGb d ≤ 256)

/-- Two DIMMs match in width, density, rank structure and capacity. -/
def dimmMatch (a b : Dimm) : Bool :=
  a.width == b.width && a.density == b.density && a.packageRanks == b.packageRanks && a.stack == b.stack

/-- The accepted DIMM of a channel. -/
def acceptedDimm (dimms : Vector (Option Dimm) 8) (c : Fin 8) : Option Dimm :=
  match dimms[c] with
  | some d => if dimmOk d then some d else none
  | none => none

/-- The accepted DIMM of the lowest-numbered channel with one. -/
def modelDimm (dimms : Vector (Option Dimm) 8) : Option Dimm := (allFin 8).findSome? (acceptedDimm dimms)

/-- The channel is eligible (R339). -/
def eligible (dimms : Vector (Option Dimm) 8) (fence : BitVec 16) (c : Fin 8) : Bool :=
  match acceptedDimm dimms c, modelDimm dimms with
  | some d, some m => dimmMatch d m && !fence.getLsbD (2 * c.val) && !fence.getLsbD (2 * c.val + 1)
  | _, _ => false

/-- The channel sets in the order of R339. -/
def channelSets : List (List (Fin 8)) :=
  [[0, 1, 2, 3, 4, 5, 6, 7], [0, 1, 2, 3], [4, 5, 6, 7], [0, 1], [2, 3], [4, 5], [6, 7]]

/-- The channels of the map (R339), empty when no set qualifies. -/
def chooseSet (dimms : Vector (Option Dimm) 8) (fence : BitVec 16) : List (Fin 8) :=
  (channelSets.find? fun l => l.all (eligible dimms fence)).getD []

/-- log2 of the logical ranks. -/
def rankBitsOf (k : Nat) : Nat := if k = 1 then 0 else if k = 2 then 1 else 2

/-- Width of COL and of ROW (R340). -/
def colBits (x8 : Bool) : Nat := if x8 then 6 else 7
def rowBits (dens32 : Bool) : Nat := if dens32 then 17 else 16

/-- The map fields for a channel set (R340, STK_MAP, STK_CAP). -/
def buildMap (k : Stacks) (xor : Vector Word 5) : Stacks :=
  let set := chooseSet k.dimms k.fence
  match set, modelDimm k.dimms with
  | [], _ | _, none =>
    { k with channels := [], rankBits := 0, x8 := false, dens32 := false, mw := 0, cap := 0, nomem := true }
  | _, some d =>
    let x8 := d.width == 8
    let dens32 := d.density == 32
    let mw := 3 + 2 + colBits x8 + rankBitsOf (dimmRanks d) + rowBits dens32
    { k with
      channels := set, rankBits := rankBitsOf (dimmRanks d), x8 := x8, dens32 := dens32, mw := mw,
      cap := 2 * set.length * 2 ^ mw * 64, nomem := false, xor := xor }

/-- n_s (R339). -/
def nSub (k : Stacks) : Nat := 2 * k.channels.length

/-- The subchannel of a line (R339, R340), none where nothing is mapped. -/
def subOf (k : Stacks) (line : Nat) : Option (Fin 16) :=
  let i := line % nSub k
  match k.channels[i / 2]? with
  | some c => some ⟨2 * c.val + i % 2, by have := c.isLt; omega⟩
  | none => none

/-- M of a line (R340). -/
def lineM (k : Stacks) (line : Nat) : Nat := line / nSub k

/-- The mask STK_XOR_k as it acts: bit k fixed at 1 and the other bits of the bank fields at 0 (R341). -/
def xorMask (k : Stacks) (i : Fin 5) : Nat := (k.xor[i].toNat / 32 * 32 + 2 ^ i.val) % 2 ^ k.mw

/-- Parity of the low 32 bits of a number. -/
def parity (n : Nat) : Bool := bitCount n 32 % 2 == 1

/-- Bank group and bank of a line as 8 × bank + group, below the rank (R340, R341). -/
def bankOf (k : Stacks) (line : Nat) : Nat :=
  let m := lineM k line
  let b := (allFin 5).foldl (fun n i => n + (if parity (m &&& xorMask k i) then 2 ^ i.val else 0)) 0
  b + 32 * (m / 2 ^ (5 + colBits k.x8) % 2 ^ k.rankBits)

/-- The row of a line (R340). -/
def rowOf (k : Stacks) (line : Nat) : Nat := lineM k line / 2 ^ (5 + colBits k.x8 + k.rankBits)

/-! ## Who answers an access -/

/-- Where an access to a line goes: PD2 is off (R449), the line lies beyond installed memory or in a fenced
subchannel (R342), or DRAM answers. -/
inductive LineAns where
  | off
  | refused
  | dram (sub : Fin 16)
deriving DecidableEq, Repr

def lineAns (s : State) (line : Nat) : LineAns :=
  if !domUp s 2 then .off
  else if s.stk.cap ≤ line * 64 then .refused
  else
    match subOf s.stk line with
    | none => .refused
    | some i => if (s.sub i).state = .fenced then .refused else .dram i

/-- Stacks answers accesses now: requests wait before INIT_DONE (R355), during a rate change (R375) and in
self-refresh (R365). With PD2 off nothing waits. (DEDUCED: log entry 117) -/
def memServes (s : State) : Bool :=
  !domUp s 2 ||
  (pageUp s .stk && s.stk.initDone && !s.stk.rateBusy && !s.stk.sref)

/-- A request starts the exit from self-refresh (R365). (DEDUCED: log entries 93, 117) -/
def memWake (s : State) : State :=
  if s.stk.sref then s.modStacks fun k => { k with srefExit := true } else s

/-- An access answered under R342. -/
def countOor (s : State) : State := setEvt (s.modStacks fun k => { k with oor := k.oor + 1 }) .stk 9

/-! ## Blocks and lines -/

/-- DRAM bytes read as zero where nothing else was written (R355). (DESIGN CHOICE: log entry 9) -/
def memByte (k : Stacks) (a : Nat) : Byte := sparseGet (fun _ => 0) k.mem a

/-- The 32 bytes of a ledger block. -/
def blockBytes (k : Stacks) (blk : Nat) : List Byte := sparseGetAll (fun _ => 0) k.mem (32 * blk) 32

/-- The canonical form of DRAM: bytes in rising addresses with none equal to 0, and poison marks and tags alike. -/
def memWf (k : Stacks) : Bool := sparseWf (fun _ => (0 : Byte)) k.mem

/-- The tag of a line; a line that no P0 write has tagged holds all ones (R350, R355). (DESIGN CHOICE: log entry 9) -/
def lineTag (k : Stacks) (line : Nat) : BitVec 56 := sparseGet (fun _ => BitVec.allOnes 56) k.tags line

/-- A block with new contents (R347, R349). -/
def putBlock (k : Stacks) (blk : Nat) (data : List Byte) (poison : Bool) : Stacks :=
  { k with
    mem := sparseSetAll (fun _ => 0) k.mem (32 * blk) data
    poison := setMember k.poison blk poison }

/-- A line's tag. -/
def putTag (k : Stacks) (line : Nat) (t : BitVec 56) : Stacks :=
  { k with tags := sparseSet (fun _ => BitVec.allOnes 56) k.tags line t }

/-- The byte of a request at an offset of its line, if it writes one. -/
def reqByte (bytes : List (Nat × Byte)) (o : Nat) : Option Byte :=
  (bytes.find? fun x => x.1 == o).map Prod.snd

/-- Bytes `32 h` to `32 h + 31` of the line as the request delivers them. -/
def reqHalf (bytes : List (Nat × Byte)) (h : Nat) : List (Option Byte) :=
  (List.range 32).map fun i => reqByte bytes (32 * h + i)

/-- An arriving ledger word that decoded as corrected or uncorrectable (R348). -/
def countDatapath (s : State) (port : StkPort) (d : Decoded) : State :=
  match d with
  | .clean | .poison => s
  | .corrected =>
    detect (setEvt (s.modStacks fun k => { k with dpCorr := k.dpCorr + 1 }) .stk 8) .stk port.val 0x60 0
      clsTransient
  | .uncorrectable =>
    detect (setEvt (s.modStacks fun k => { k with dpUncorr := k.dpUncorr + 1 }) .stk 8) .stk port.val 0x60 0
      clsLasting

/-- One ledger word of a line write arrives: what its decoding leaves (R348), the bytes that it writes, and whether its
block is written as poison. -/
def arriveHalf (port : StkPort) (r : StkReq) (h : Nat) (s : State) : State × List (Nat × Byte) × Bool :=
  let half := reqHalf r.bytes h
  if half.all Option.isNone then (s, [], false)
  else
    let (d, data) := ledgerArrive (half.map fun x => x.getD 0) (if h = 0 then r.poison0 else r.poison1)
      (if h = 0 then r.err0 else r.err1)
    let bytes := (half.zip data).zipIdx.filterMap fun x => if x.1.1.isSome then some (32 * h + x.2, x.1.2) else none
    (countDatapath s port d, bytes, decide (d = .uncorrectable) || decide (d = .poison))

/-- The request writes every byte of its line. -/
def wholeLine (bytes : List (Nat × Byte)) : Bool := (List.range 64).all fun o => (reqByte bytes o).isSome

/-- Some byte of half `h` is written. -/
def touchesHalf (bytes : List (Nat × Byte)) (h : Nat) : Bool := (reqHalf bytes h).any Option.isSome

/-- Half `h` of a write enters DRAM (R347, R349). -/
def storeHalf (x : QReq) (h : Nat) (bad : Bool) (k : Stacks) : Stacks :=
  if touchesHalf x.bytes h then putBlock k (2 * x.line + h) ((reqHalf x.bytes h).map fun b => b.getD 0) bad else k

/-- A write issues: its blocks and its tag enter DRAM (R348 to R350). -/
def storeLine (x : QReq) (k : Stacks) : Stacks :=
  let k1 := storeHalf x 1 x.bad1 (storeHalf x 0 x.bad0 k)
  match x.tag with
  | some t => putTag k1 x.line t
  | none => k1

/-- What a line holds. -/
def lineContent (k : Stacks) (line : Nat) : LineData :=
  { bytes := blockBytes k (2 * line) ++ blockBytes k (2 * line + 1), bad0 := decide (2 * line ∈ k.poison)
    bad1 := decide (2 * line + 1 ∈ k.poison), tag := lineTag k line }

/-- The 16 beats of a line's burst (R345): DQ[31:0] with line byte n on DQ[8 × (n mod 4) + 7 : 8 × (n mod 4)] of beat
n ÷ 4, and CB[7:0] with the check bytes of both codewords, the tag bytes and H. -/
def lineBurst (d : LineData) : List (Word × Byte) :=
  let w0 := ledgerWord (d.bytes.take 32) d.bad0
  let w1 := ledgerWord (d.bytes.drop 32) d.bad1
  let cb := w0.drop 32 ++ w1.drop 32 ++ leBytes 7 d.tag.toNat ++ [tagCheck d.tag]
  (List.range 16).map fun b => (BitVec.ofNat 32 (leNat ((d.bytes.drop (4 * b)).take 4)), cb[b]?.getD 0)

/-- A write of a client whose words travel without error. -/
def plainReq (from_ : Requester) (line : Nat) (bytes : List (Nat × Byte)) (tag : BitVec 56)
    (poison0 poison1 : Bool) : StkReq :=
  { line := line, from_ := from_, write := true, bytes := bytes, tag := tag, err0 := [], err1 := [],
    poison0 := poison0, poison1 := poison1 }

/-- A read of a line. -/
def readReq (from_ : Requester) (line : Nat) : StkReq :=
  { line := line, from_ := from_, write := false, bytes := [], tag := BitVec.allOnes 56, err0 := [], err1 := [],
    poison0 := false, poison1 := false }

/-- The lines that `n` bytes from address `a` touch. -/
def linesOf (a n : Nat) : List Nat :=
  if n = 0 then [] else (List.range ((a + n - 1) / 64 - a / 64 + 1)).map fun i => a / 64 + i

/-- The bytes of a transfer from address `a` that lie in a line, with their offsets. -/
def bytesIn (a : Nat) (bytes : List (Option Byte)) (line : Nat) : List (Nat × Byte) :=
  (List.range 64).filterMap fun o =>
    if a ≤ 64 * line + o then ((bytes[64 * line + o - a]?).join).map fun b => (o, b) else none

/-- A line as a read passes it on: `none` for the bytes of a poison block. -/
def dataView (d : LineData) : List (Option Byte) :=
  (if d.bad0 then List.replicate 32 none else (d.bytes.take 32).map some) ++
  (if d.bad1 then List.replicate 32 none else (d.bytes.drop 32).map some)

def poisonView : List (Option Byte) := List.replicate 64 none

/-- The read of a line that has returned for a requester. -/
def returnedView (k : Stacks) (from_ : Requester) (line : Nat) : Option (List (Option Byte)) :=
  (k.returned.find? fun x => x.1 == from_ && x.2.1 == line).map fun x => x.2.2

/-- A line as a requester finds it: what has returned for it, else what the line holds (R342, R347, R449). -/
def lineView (s : State) (from_ : Requester) (line : Nat) : List (Option Byte) :=
  match returnedView s.stk from_ line with
  | some l => l
  | none =>
    match lineAns s line with
    | .off | .refused => poisonView
    | .dram _ => dataView (lineContent s.stk line)

/-- A read has returned for its requester; the scrubber and the reads of Stacks itself take no data. -/
def giveLine (from_ : Requester) (line : Nat) (view : List (Option Byte)) (s : State) : State :=
  match from_ with
  | .scrub | .reRead => s
  | _ =>
    s.modStacks fun k =>
      { k with returned := (from_, line, view) :: k.returned.filter fun x => !(x.1 == from_ && x.2.1 == line) }

/-- A requester takes the line that has returned for it. -/
def takeLine (from_ : Requester) (line : Nat) (s : State) : State :=
  s.modStacks fun k => { k with returned := k.returned.filter fun x => !(x.1 == from_ && x.2.1 == line) }

/-- What has returned for a requester is dropped: it asks anew. -/
def dropReturned (from_ : Requester) (s : State) : State :=
  s.modStacks fun k => { k with returned := k.returned.filter fun x => x.1 != from_ }

/-- `n` bytes from address `a` as a requester finds them. -/
def memBytes (s : State) (from_ : Requester) (a n : Nat) : List (Option Byte) :=
  (((linesOf a n).flatMap (lineView s from_)).drop (a % 64)).take n

/-- Some line of the range is answered under R342 or R449. -/
def memRange (s : State) (a n : Nat) : Bool :=
  (linesOf a n).any fun l => match lineAns s l with | .dram _ => false | _ => true

end Sys2Proof.Machine
end

