-- ==== Sys2Proof/WellFormed.lean ====
section
/-! DEFINITION. Well-formed commands: the operands that some transfer or measurement can have. A command whose
operands have no such form is turned away with the fault `illFormed`. -/

namespace Sys2Proof

/-- Error patterns lie on the 36 symbols of a ledger word (R343). -/
def wfErrs (e : SymErrs) : Bool := e.all fun x => decide (x.1 < 36)

def wfLineErr (e : LineErr) : Bool := wfErrs e.cw0 && wfErrs e.cw1

/-- A port request names a line of the 41-bit map and bytes of that line. -/
def wfReq (r : StkReq) : Bool :=
  decide (r.line < 2 ^ 35) && wfErrs r.err0 && wfErrs r.err1 && r.bytes.all (fun x => decide (x.1 < 64))

/-- The errors of a read and of at most 7 re-reads: 3 under R352, and 4 under R351 after the last of them. -/
def wfRead (first : LineErr) (again : List LineErr) : Bool :=
  wfLineErr first && again.all wfLineErr && decide (again.length ≤ 7)

def wfReads (l : LineReads) : Bool := l.all fun x => wfRead x.2.1 x.2.2

/-- A read of 1 to 4,096 bytes, a write of 1 to 512 bytes (R378, R382). -/
def wfBar2 (op : Bar2Op) : Bool :=
  match op with
  | .read len egress dram => decide (1 ≤ len) && decide (len ≤ 4096) && egress.all (fun x => wfErrs x.2) && wfReads dram
  | .write bytes _ dram => decide (1 ≤ bytes.length) && decide (bytes.length ≤ 512) && wfReads dram

/-- A descriptor of 32 bytes, and what its completion brings (R387). -/
def wfDesc (entry : List Byte) (data : HostData) : Bool :=
  decide (entry.length = 32) && decide (data.bytes.length ≤ 16777216) && data.egress.all (fun x => wfErrs x.2) &&
  wfReads data.dram

/-- A flash that R450 supports. -/
def wfFlash (f : FlashParams) : Bool :=
  decide (21 ≤ f.size) && decide (f.size ≤ 28) && decide (1 ≤ f.fastest) && decide (f.fastest ≤ 5) &&
  decide (2 ≤ f.minDiv) && decide (f.minDiv ≤ 10)

/-- Negotiated rate and width (HL_LINK). -/
def wfLink (rate : BitVec 4) (width : BitVec 6) : Bool :=
  decide (1 ≤ rate.toNat) && decide (rate.toNat ≤ 5) && (width == 1 || width == 2 || width == 4 || width == 8)

/-- Well-formedness of a command. (DEDUCED: log entry 13) -/
def Instr.wf (i : Instr) : Bool :=
  match i with
  | .registerWrite _ words _ => decide (1 ≤ words.length) && decide (words.length ≤ 128)
  | .registerRead _ words _ => decide (1 ≤ words) && decide (words ≤ 1024)
  | .shfDataRead _ words => decide (1 ≤ words) && decide (words ≤ 512)
  | .requestEnter _ req => wfReq req
  | .readReturn _ first again => wfRead first again
  | .tagDone errs => wfRead errs.1 errs.2
  | .bar2Access _ op => wfBar2 op
  | .descriptorComplete _ entry data => wfDesc entry data
  | .frameReceive _ body _ _ _ => decide (body.length = 76)
  | .devicePowerUp _ flash => (flash.map wfFlash).getD true
  | .linkUp rate width => wfLink rate width
  | .linkRateOrWidthChange rate width => wfLink rate width
  | _ => true

end Sys2Proof
end

