-- ==== Sys2Proof/Machine/Schedule.lean ====
section
/-! DEFINITION. The requests of Stacks: ports, queues, the order in which a subchannel issues them, and the accesses
of the other blocks to DRAM (chapter 14, R356 to R362, R364, R365). -/

namespace Sys2Proof.Machine

/-! ## Ports and live configuration -/

def State.modPort (s : State) (p : StkPort) (f : PortCnt → PortCnt) : State :=
  s.modStacks fun k => { k with ports := vmod k.ports p f }

def portClass (s : State) (p : StkPort) : Nat := live s .stk (0x100 + 0x20 * p.val) 0 2
def portMaxq (s : State) (p : StkPort) : Nat := live s .stk (0x100 + 0x20 * p.val) 8 8
def portTarget (s : State) (p : StkPort) : Nat := live s .stk (0x104 + 0x20 * p.val) 0 24
def ageLim (s : State) : Nat := live s .stk 0x04C 0 24

/-- Entries of a subchannel's queue (R356). -/
def queueSize : Nat := 192

/-- Requests of a port in a queue. -/
def portHolds (q : List QReq) (p : StkPort) : Nat := (q.filter fun x => x.port == p).length

/-- NOW of STK_PORT_INFL_p. -/
def portNow (k : Stacks) (p : StkPort) : Nat := (k.subs.toList.map fun c => portHolds c.queue p).sum

/-- The queue has room for a request of the port (R357). -/
def hasRoom (s : State) (i : Fin 16) (p : StkPort) : Bool :=
  let q := (s.sub i).queue
  decide (q.length < queueSize) && decide (portHolds q p < portMaxq s p)

/-- Self-refresh idleness counts from the present tick (R364). (DEDUCED: log entry 93) -/
def idleNow (s : State) : State := s.modStacks fun k => { k with idleFrom := s.tick }

/-! ## Entering a queue (R357, R361) -/

/-- A read of a row to which the queue holds a write brings its bank into in-order mode (R361); the read for a write
of a part of a line is part of that write. -/
def inorderEnter (x : QReq) (c : Sub) : Sub :=
  let same := fun (y : QReq) => y.bank == x.bank && y.row == x.row && y.write && !(x.fetch && y.merge &&
    y.line == x.line)
  if x.write || !(c.queue.any same) then c
  else
    let n := (c.queue.filter fun y => y.bank == x.bank && y.write).length
    { c with
      inorder := (x.bank, n) :: c.inorder.filter fun y => y.1 != x.bank
      inorderCnt := if c.inorder.any (fun y => y.1 == x.bank) then c.inorderCnt else c.inorderCnt + 1 }

/-- A request as its queue holds it, with what a write has been decoded to. -/
def queued (s : State) (p : StkPort) (r : StkReq) (fetch : Bool) (b0 b1 : List (Nat × Byte) × Bool) : QReq :=
  let whole := wholeLine r.bytes
  { port := p, line := r.line, write := r.write, stamp := s.time.toNat, promoted := false
    bank := bankOf s.stk r.line, row := rowOf s.stk r.line, requester := r.from_
    bytes := b0.1 ++ b1.1, bad0 := b0.2, bad1 := b1.2
    tag := if !r.write then none else if p = 0 then some r.tag else if whole then some (BitVec.allOnes 56) else none
    merge := r.write && !whole, fetch := fetch }

/-- The read through P5 that a write of a part of a line calls for (R349). -/
def fetchReq (r : StkReq) : StkPort × StkReq × Bool := (5, readReq .reRead r.line, true)

/-- A request enters the queue of its subchannel; the ledger words of a write are decoded (R348). (DESIGN CHOICE: log
entry 86) -/
def enterQueue (p : StkPort) (r : StkReq) (fetch : Bool) (i : Fin 16) (s : State) : State :=
  let (s0, b0) := if r.write then arriveHalf p r 0 s else (s, [], false)
  let (s1, b1) := if r.write then arriveHalf p r 1 s0 else (s0, [], false)
  let x := queued s p r fetch b0 b1
  let s2 := s1.modSub i fun c => let c' := inorderEnter x c; { c' with queue := c'.queue ++ [x] }
  let s3 := s2.modPort p fun c => { c with req := c.req + 1, peak := max c.peak (portNow s2.stk p) }
  let s4 := if x.merge then s3.modStacks fun k => { k with waiting := k.waiting ++ [fetchReq r] } else s3
  if p = 4 then s4 else idleNow s4

/-- FILLING, READY or TRIGGERED (R320). -/
def recording (x : Folio) : Bool := x.state == 2 || x.state == 3 || x.state == 4

/-- An Archive write that reaches a fenced subchannel ends its folio with cause 4 (R373). -/
def fencedWrite (from_ : Requester) (s : State) : State :=
  match from_ with
  | .archive f =>
    if h : f < 64 then
      s.modFolio ⟨f, h⟩ fun x =>
        if recording x then { x with endPend := x.endPend.or (some 4) } else x
    else s
  | _ => s

/-- A request that DRAM does not answer: a read returns poison, a write is discarded (R342). -/
def refuseReq (r : StkReq) (fetch : Bool) (s : State) : State :=
  if fetch then s
  else if r.write then fencedWrite r.from_ (countOor s)
  else giveLine r.from_ r.line poisonView (countOor s)

/-- One waiting request at the head of its port: it enters its queue, is answered under R342 or R449, or waits on, with
all behind it in its port. -/
def admitOne (x : StkPort × StkReq × Bool) (acc : State × List (StkPort × StkReq × Bool) × List StkPort) :
    State × List (StkPort × StkReq × Bool) × List StkPort :=
  let (s, kept, stuck) := acc
  if stuck.contains x.1 then (s, kept ++ [x], stuck)
  else
    match lineAns s x.2.1.line with
    | .off =>
      (if x.2.2 then s
       else if x.2.1.write then fencedWrite x.2.1.from_ s
       else giveLine x.2.1.from_ x.2.1.line poisonView s, kept, stuck)
    | .refused => (refuseReq x.2.1 x.2.2 s, kept, stuck)
    | .dram i =>
      if hasRoom s i x.1 then (enterQueue x.1 x.2.1 x.2.2 i s, kept, stuck) else (s, kept ++ [x], x.1 :: stuck)

/-- Waiting requests enter their queues, each port in its order. -/
def admitPass (s : State) : State :=
  let r := s.stk.waiting.foldl (fun acc x => admitOne x acc) (s.modStacks fun k => { k with waiting := [] }, [], [])
  r.1.modStacks fun k => { k with waiting := r.2.1 ++ k.waiting }

/-- Stacks takes what waits at its ports while it serves requests; a second pass takes the reads that writes of parts
of lines call for. (DESIGN CHOICE: log entry 86) -/
def letIn (s : State) : State := if memServes s && !s.stk.waiting.isEmpty then admitPass (admitPass s) else s

/-- A request reaches its port. It starts the exit from self-refresh, unless it comes from P4 (R365). (DESIGN CHOICE:
log entry 86) -/
def requestEnter (p : StkPort) (r : StkReq) (s : State) : State :=
  if !pageUp s .stk then s
  else
    letIn ((if p = 4 then s else memWake s).modStacks fun k => { k with waiting := k.waiting ++ [(p, r, false)] })

/-! ## Urgency, promotion and order (R358 to R362) -/

def reqAge (s : State) (x : QReq) : Nat := s.time.toNat - x.stamp

/-- Urgency of an age against a target. -/
def urgency (target age : Nat) : Nat :=
  if 2 * age < target then 0 else if 4 * age < 3 * target then 1 else if age < target then 2 else 3

def reqUrgency (s : State) (x : QReq) : Nat := urgency (portTarget s x.port) (reqAge s x)

/-- Requests whose age has reached STK_AGE_LIM are promoted, each counted once. -/
def promote (i : Fin 16) (s : State) : State :=
  let due := fun (x : QReq) => !x.promoted && decide (ageLim s ≤ reqAge s x)
  let l := (s.sub i).queue.filter due
  let s1 := s.modSub i fun c =>
    { c with queue := c.queue.map fun x => if due x then { x with promoted := true } else x }
  s1.each l fun x s => s.modPort x.port fun c => { c with promo := c.promo + 1 }

/-- `y`, younger in the queue, goes before `x` (R359). -/
def goesFirst (s : State) (y x : QReq) : Bool :=
  if y.promoted || x.promoted then y.promoted && !x.promoted
  else if portClass s y.port ≠ portClass s x.port then decide (portClass s y.port < portClass s x.port)
  else decide (reqUrgency s x < reqUrgency s y)

/-- The first request of a list in the order of R359. -/
def firstReq (s : State) (l : List (Nat × QReq)) : Option (Nat × QReq) :=
  match l with
  | [] => none
  | x :: rest => some (rest.foldl (fun a b => if goesFirst s b.2 a.2 then b else a) x)

/-- What stands before a request in the order of R360 and R361: the older requests, and for the read of a write of a
part of a line those that are older than that write. (DESIGN CHOICE: log entry 86) -/
def olderReqs (c : Sub) (n : Nat) (x : QReq) : List QReq :=
  if x.fetch then c.queue.takeWhile fun y => !(y.line == x.line && y.merge)
  else (c.queue.take n).filter fun y => !y.fetch

/-- The reads of writes of parts of one line go one after the other. -/
def fetchFree (c : Sub) (n : Nat) (x : QReq) : Bool :=
  !x.fetch || !((c.queue.take n).any (fun y => y.fetch && y.line == x.line) ||
    c.reads.any fun y => y.1.fetch && y.1.line == x.line)

/-- The request at place `n` is not held back by R349, R360 or R361, and its bank may issue. -/
def mayIssue (c : Sub) (busy : List Nat) (n : Nat) (x : QReq) : Bool :=
  let before := olderReqs c n x
  !(busy.contains x.bank) && !x.merge && fetchFree c n x && !(before.any fun y => y.line == x.line) &&
  (!(c.inorder.any fun z => z.1 == x.bank) || !(before.any fun y => y.bank == x.bank))

/-- Eligible requests with their places in the queue, oldest first. -/
def eligibleReqs (c : Sub) (busy : List Nat) : List (Nat × QReq) :=
  (c.queue.zipIdx.map fun x => (x.2, x.1)).filter fun x => mayIssue c busy x.1 x.2

/-- The request that issues next (R359, R362). -/
def nextReq (s : State) (c : Sub) (busy : List Nat) : Option (Nat × QReq) :=
  let l := eligibleReqs c busy
  match firstReq s l with
  | none => none
  | some f =>
    if f.2.write = c.dirWrite then some f
    else
      match firstReq s (l.filter fun x => x.2.write == c.dirWrite) with
      | some p =>
        if portClass s p.2.port = portClass s f.2.port ∧ !f.2.promoted ∧ c.burst < 32 then some p else some f
      | none => some f

/-- A write of a bank in in-order mode issues (R361). -/
def inorderLess (bank : Nat) (l : List (Nat × Nat)) : List (Nat × Nat) :=
  (l.map fun x => if x.1 = bank then (x.1, x.2 - 1) else x).filter fun x => x.2 != 0

/-- The first sample whose lines are not all in DRAM (R326). -/
def horizonOf (x : Folio) : Nat :=
  let l := x.streams.map Stream.upTo ++ x.flying.map Prod.snd
  l.foldl min (l.headD 0)

/-- A line of a folio lies in DRAM (R326). -/
def lineStored (from_ : Requester) (line : Nat) (s : State) : State :=
  match from_ with
  | .archive f =>
    if h : f < 64 then
      s.modFolio ⟨f, h⟩ fun x =>
        let y := { x with flying := x.flying.eraseP fun y => y.1 == line }
        { y with horizon := horizonOf y }
    else s
  | _ => s

/-- A request leaves its queue for the DRAM: a write takes effect, a read finds what its line holds. -/
def issueReq (i : Fin 16) (n : Nat) (x : QReq) (s : State) : State :=
  let late := reqUrgency s x == 3
  let s1 := s.modSub i fun c =>
    { c with
      queue := c.queue.eraseIdx n
      reads := if x.write then c.reads else c.reads ++ [(x, lineContent s.stk x.line)]
      inorder := if x.write then inorderLess x.bank c.inorder else c.inorder
      burst := if x.write = c.dirWrite then c.burst + 1 else 1
      dirWrite := x.write }
  let s2 := if x.write then lineStored x.requester x.line (s1.modStacks (storeLine x)) else s1
  let s3 := s2.modPort x.port fun c => { c with late := if late then c.late + 1 else c.late }
  letIn (if late then setEvt s3 .stk 10 else s3)

/-- The subchannel can issue: it serves requests and is in no retraining pause (R366, R371). -/
def canIssue (s : State) (i : Fin 16) : Bool :=
  memServes s && decide ((s.sub i).state = .ready) && decide ((s.sub i).pauseUntil ≤ s.tick)

/-! ## Writes of one requester -/

/-- Writes of one requester to lines of a list leave the queues. -/
def dropWrites (from_ : Requester) (lines : List Nat) (s : State) : State :=
  let gone := fun (r : Requester) (line : Nat) => r == from_ && lines.contains line
  let cut := fun (c : Sub) =>
    let out := c.queue.filter fun x => gone x.requester x.line
    { c with
      queue := c.queue.filter fun x => !gone x.requester x.line
      inorder := out.foldl (fun l x => inorderLess x.bank l) c.inorder }
  s.modStacks fun k =>
    { k with subs := k.subs.map cut, waiting := k.waiting.filter fun x => !gone x.2.1.from_ x.2.1.line }

/-- A write of the requester to the line waits at its port or stands in a queue. -/
def writeUnderWay (s : State) (from_ : Requester) (line : Nat) : Bool :=
  (s.stk.waiting.any fun x => x.2.1.from_ == from_ && x.2.1.line == line && x.2.1.write) ||
  s.stk.subs.toList.any fun c => c.queue.any fun x => x.requester == from_ && x.line == line && x.write

/-! ## Commands -/

/-- (DEDUCED: log entry 13) -/
def execRequestEnter (port : StkPort) (req : StkReq) (s : State) : Ret :=
  if wfReq req then .next (requestEnter port req s) else .fault .illFormed

/-- PROMOTED: the requests of a subchannel that have reached STK_AGE_LIM are promoted. -/
def execPromoted (sub : Fin 16) (s : State) : Ret :=
  .next (if pageUp s .stk then promote sub s else s)

/-- REQUEST_ISSUE: the subchannel can issue; `busy` lists the banks whose timing does not permit it. -/
def requestIssue (i : Fin 16) (busy : List Nat) (s0 : State) : State :=
  if pageUp s0 .stk && canIssue s0 i then
    let s := promote i (letIn s0)
    match nextReq s (s.sub i) busy with
    | some (n, x) => issueReq i n x s
    | none => s
  else s0

end Sys2Proof.Machine
end

