-- ==== Sys2Proof/Machine/Judge.lean ====
section
/-! DEFINITION. Judgement of a DRAM read: its codewords and its tag, retries, write-backs, counts and fault entries, and
the merge of a partial write (chapter 14, R344, R346, R349 to R353). -/

namespace Sys2Proof.Machine

def stkRetry (s : State) : Nat := live s .stk 0x040 4 2

/-- What half `h` of a line decodes to, with the errors of that read (R344). -/
def halfDecoded (d : LineData) (e : LineErr) (h : Nat) : Decoded :=
  (ledgerArrive ((d.bytes.drop (32 * h)).take 32) (if h = 0 then d.bad0 else d.bad1) (if h = 0 then e.cw0 else e.cw1)).1

/-- What a read of a line finds: the worst outcome of its two codewords, and its tag's (R344, R346). (DEDUCED: log
entry 89) -/
def judge (d : LineData) (e : LineErr) : Decoded × Decoded :=
  let a := halfDecoded d e 0
  let b := halfDecoded d e 1
  let data : Decoded :=
    if a = .uncorrectable ∨ b = .uncorrectable then .uncorrectable
    else if a = .poison ∨ b = .poison then .poison
    else if a = .corrected ∨ b = .corrected then .corrected
    else .clean
  (data, (tagArrive d.tag e.tag e.h).1)

/-- The worst of data and tag. (DEDUCED: log entry 89) -/
def worst (x : Decoded × Decoded) : Decoded :=
  if x.1 = .uncorrectable ∨ x.2 = .uncorrectable then .uncorrectable
  else if x.1 = .poison then .poison
  else if x.1 = .corrected ∨ x.2 = .corrected then .corrected
  else .clean

/-- A read pattern without errors. -/
def noErr : LineErr := { cw0 := [], cw1 := [], tag := 0, h := 0 }

/-- A block as its decoding passes it on. -/
def halfView (d : LineData) (e : LineErr) (h : Nat) : List (Option Byte) :=
  match halfDecoded d e h with
  | .clean | .corrected => ((d.bytes.drop (32 * h)).take 32).map some
  | .poison | .uncorrectable => List.replicate 32 none

/-- What a read passes on: the line with `none` for poison, and whether its tag is known. -/
structure ReadAns where
  view : List (Option Byte)
  tagOk : Bool
deriving DecidableEq, Repr

def readAns (d : LineData) (e : LineErr) : ReadAns :=
  { view := halfView d e 0 ++ halfView d e 1, tagOk := (judge d e).2 != .uncorrectable }

/-- STK_ERR_LAST. -/
def errLast (type line : Nat) (s : State) : State :=
  s.modStacks fun k => { k with errType := BitVec.ofNat 4 type, errAddr := 64 * line }

/-- Requests of Stacks itself that pass through P5, one after the other (R351, R352, R356). -/
def p5Requests (n : Nat) (s : State) : State :=
  if n = 0 then s
  else idleNow (s.modPort 5 fun c => { c with
    req := c.req + BitVec.ofNat 32 n, peak := max c.peak (portNow s.stk 5 + 1) })

/-- Write-backs until a read of the line is clean: how many, or none when the error lasts (R351). Reads that the
list does not give carry no errors. -/
def writeBacks (d : LineData) (retry k : Nat) (again : List LineErr) : Option Nat :=
  match again with
  | [] => some k
  | e :: rest =>
    if worst (judge d e) = .clean then some k
    else if k < retry then writeBacks d retry (k + 1) rest
    else none

/-- A corrected read is judged (R351): the line is read again, and written back and read while that is not clean. -/
def correctedRead (i : Fin 16) (line : Nat) (d : LineData) (again : List LineErr) (s : State) : State :=
  match writeBacks d (stkRetry s) 0 again with
  | some k =>
    detect (setEvt ((p5Requests (1 + 2 * k) s).modSub i fun c => { c with corrT := c.corrT + 1 }) .stk 2)
      .stk i.val 0x61 k clsTransient
  | none =>
    detect
      (errLast 1 line
        ((p5Requests (1 + 2 * stkRetry s) s).modSub i fun c => { c with corrL := c.corrL + 1 }))
      .stk i.val 0x61 (stkRetry s) clsLasting

/-- Where the re-reads of an uncorrectable line end (R352, R353): the number of re-reads, the pattern of the last,
what it decodes to, and the patterns left. (DEDUCED: log entry 89) -/
def reReads (d : LineData) (retry k : Nat) (again : List LineErr) : Nat × LineErr × Decoded × List LineErr :=
  match again with
  | [] => (k + 1, noErr, worst (judge d noErr), [])
  | e :: rest =>
    match worst (judge d e) with
    | .uncorrectable => if k + 1 < retry then reReads d retry (k + 1) rest else (k + 1, e, .uncorrectable, rest)
    | x => (k + 1, e, x, rest)

/-- An uncorrectable read is judged (R352). A tag double error leaves the data as they are. (DEDUCED: log entry 89) -/
def uncorrectedRead (i : Fin 16) (line : Nat) (d : LineData) (first : LineErr) (again : List LineErr) (s0 : State) :
    ReadAns × State :=
  let tagOnly := (judge d first).1 != .uncorrectable
  let code := if tagOnly then 0x63 else 0x62
  let (k, e, x, rest) := reReads d (stkRetry s0) 0 again
  let s := p5Requests k s0
  match x with
  | .poison => (readAns d e, s)
  | .uncorrectable =>
    let s1 := errLast (if tagOnly then 3 else 2) line (s.modSub i fun c => { c with uncorrL := c.uncorrL + 1 })
    let s2 := detect (setEvt s1 .stk 3) .stk i.val code (stkRetry s) clsLasting
    (if tagOnly then readAns d first else { view := poisonView, tagOk := (judge d first).2 != .uncorrectable }, s2)
  | .clean | .corrected =>
    let s1 := detect (s.modSub i fun c => { c with uncorrT := c.uncorrT + 1 }) .stk i.val code k clsTransient
    (readAns d e, if x = .corrected then correctedRead i line d rest s1 else s1)

/-- A read of a line of subchannel `i` that held `d` is judged, by its own errors and those of its re-reads (R351 to
R353). -/
def judgeRead (i : Fin 16) (line : Nat) (d : LineData) (first : LineErr) (again : List LineErr) (s : State) :
    ReadAns × State :=
  match worst (judge d first) with
  | .clean | .poison => (readAns d first, s)
  | .corrected => (readAns d first, correctedRead i line d again s)
  | .uncorrectable => uncorrectedRead i line d first again s

/-! ## Partial writes (R349, R350) -/

/-- A block that a partial write touches, merged with what was read: its bytes, and whether it is written as poison. -/
def mergeHalf (x : QReq) (view : List (Option Byte)) (h : Nat) : List (Nat × Byte) × Bool :=
  let bad := if h = 0 then x.bad0 else x.bad1
  if touchesHalf x.bytes h then
    let old := (view.drop (32 * h)).take 32
    let half := reqHalf x.bytes h
    ((half.zip old).zipIdx.map fun y => (32 * h + y.2, (y.1.1.or y.1.2).getD 0),
      bad || (half.any Option.isNone && old.any Option.isNone))
  else ([], bad)

/-- The write with the line that its read has found. (DESIGN CHOICE: log entry 86) -/
def mergeWrite (r : ReadAns) (x : QReq) : QReq :=
  let a := mergeHalf x r.view 0
  let b := mergeHalf x r.view 1
  { x with
    bytes := a.1 ++ b.1, bad0 := a.2, bad1 := b.2, merge := false
    tag := if r.tagOk then x.tag else x.tag.or (some (BitVec.allOnes 56)) }

/-- The oldest partial write of the line that still waits for its read takes it. -/
def mergeFirst (line : Nat) (r : ReadAns) (l : List QReq) : List QReq :=
  match l with
  | [] => []
  | x :: rest => if x.merge && x.line == line then mergeWrite r x :: rest else x :: mergeFirst line r rest

/-- READ_RETURN: the oldest issued read of the subchannel returns with an error pattern; `again` holds those of its
re-reads. -/
def readReturn (i : Fin 16) (first : LineErr) (again : List LineErr) (s : State) : State :=
  match (s.sub i).reads with
  | [] => s
  | x :: rest =>
    if pageUp s .stk && decide ((s.sub i).state = .ready) then
      let r := judgeRead i x.1.line x.2 first again (s.modSub i fun c => { c with reads := rest })
      if x.1.fetch then r.2.modSub i fun c => { c with queue := mergeFirst x.1.line r.1 c.queue }
      else giveLine x.1.requester x.1.line r.1.view r.2
    else s

end Sys2Proof.Machine
end

