-- ==== Sys2Proof/Machine/Access.lean ====
section
/-! DEFINITION. The accesses of the other blocks to DRAM: reads and writes of lines that enter, issue and return in one
step where the order of R357 to R362 allows it (chapter 14). -/

namespace Sys2Proof.Machine

/-- The request that entered a queue last issues, where the order of R357 to R362 allows it for some timing of the
other banks: its place and the request. (DESIGN CHOICE: log entry 86) -/
def lastIssues (i : Fin 16) (bank : Nat) (s : State) : Option (Nat × QReq) :=
  let busy := ((s.sub i).queue.map QReq.bank).filter fun b => b != bank
  match nextReq s (s.sub i) busy with
  | some (n, x) => if n + 1 = (s.sub i).queue.length then some (n, x) else none
  | none => none

/-- A request of the port can enter the queue before anything else of its port, and the subchannel can issue. -/
def entersNow (p : StkPort) (i : Fin 16) (s : State) : Bool :=
  canIssue s i && hasRoom s i p && !(s.stk.waiting.any fun x => x.1 == p)

/-- A request enters and issues at once. (DESIGN CHOICE: log entry 86) -/
def issueNow (p : StkPort) (r : StkReq) (i : Fin 16) (s0 : State) : Option State :=
  if entersNow p i s0 then
    let s := promote i (enterQueue p r false i s0)
    (lastIssues i (bankOf s0.stk r.line) s).map fun x => issueReq i x.1 x.2 s
  else none

/-- A read without errors. -/
def noErrs : ReadErrs := (noErr, [])

/-- The read that has just issued returns with its errors. -/
def lastReturns (i : Fin 16) (line : Nat) (e : ReadErrs) (s : State) : ReadAns × State :=
  let d := match (s.sub i).reads.getLast? with | some x => x.2 | none => lineContent s.stk line
  judgeRead i line d e.1 e.2 (s.modSub i fun c => { c with reads := c.reads.dropLast })

/-- A block reads a line: what has returned for it, or what the line gives now; none while the read must wait. (DESIGN
CHOICE: log entry 86) -/
def readLine (p : StkPort) (from_ : Requester) (line : Nat) (e : ReadErrs) (s : State) :
    Option (List (Option Byte) × State) :=
  match returnedView s.stk from_ line with
  | some l => some (l, takeLine from_ line s)
  | none =>
    if !memServes s then none
    else
      match lineAns s line with
      | .off => some (poisonView, s)
      | .refused => some (poisonView, countOor s)
      | .dram i =>
        (issueNow p (readReq from_ line) i s).map fun s1 =>
          let r := lastReturns i line e s1
          (r.1.view, r.2)

/-- The errors of a line of an access, by its place in the access. -/
def errsAt (l : LineReads) (n : Nat) : ReadErrs := ((l.find? fun x => x.1 == n).map Prod.snd).getD noErrs

/-- A block reads several lines; `first` is the first line of the whole access. -/
def readLines (p : StkPort) (from_ : Requester) (first : Nat) (errs : LineReads) (l : List Nat) (s : State) :
    Option (List (Option Byte) × State) :=
  l.foldl
    (fun acc line =>
      match acc with
      | none => none
      | some (bytes, s) =>
        (readLine p from_ line (errsAt errs (line - first)) s).map fun y => (bytes ++ y.1, y.2))
    (some ([], s))

/-- A part of a line is written: the write, its read and the merged write pass at once where the order allows it
(R349). (DESIGN CHOICE: log entry 86) -/
def partNow (p : StkPort) (r : StkReq) (i : Fin 16) (e : ReadErrs) (s0 : State) : Option State :=
  if entersNow p i s0 && entersNow 5 i s0 then
    let bank := bankOf s0.stk r.line
    let s := promote i (letIn (enterQueue p r false i s0))
    match lastIssues i bank s with
    | none => none
    | some (n, x) =>
      if x.fetch then
        let a := lastReturns i r.line e (issueReq i n x s)
        let s1 := a.2.modSub i fun c => { c with queue := mergeFirst r.line a.1 c.queue }
        (lastIssues i bank s1).map fun y => issueReq i y.1 y.2 s1
      else none
  else none

/-- A block writes a line or a part of it: at once where the order allows it, else through its queue. (DESIGN CHOICE:
log entry 86) -/
def writeReq (p : StkPort) (r : StkReq) (e : ReadErrs) (s : State) : State :=
  if r.bytes.isEmpty then s
  else
    let now :=
      match lineAns s r.line with
      | .dram i => if wholeLine r.bytes then issueNow p r i s else partNow p r i e s
      | .off | .refused => none
    match now with
    | some s1 => s1
    | none => requestEnter p r s

/-- A block writes bytes with their enables from address `a`, line by line; `bad` says which of them arrived poisoned,
and `first` is the first line of the whole access. -/
def writeBytes (p : StkPort) (from_ : Requester) (a first : Nat) (bytes : List (Option Byte)) (bad : Nat → Bool)
    (errs : LineReads) (s : State) : State :=
  s.each (linesOf a bytes.length) fun l =>
    let b := bytesIn a bytes l
    let poison (h : Nat) : Bool := b.any fun x => x.1 / 32 == h && bad (64 * l + x.1 - a)
    writeReq p (plainReq from_ l b (BitVec.allOnes 56) (poison 0) (poison 1)) (errsAt errs (l - first))

/-- A write of the requester waits at its port or stands in a queue. -/
def writesUnderWay (s : State) (from_ : Requester) : Bool :=
  (s.stk.waiting.any fun x => x.2.1.from_ == from_ && x.2.1.write) ||
  s.stk.subs.toList.any fun c => c.queue.any fun x => x.requester == from_ && x.write

/-- Writes of the requester wait at their port. -/
def writesWait (s : State) (from_ : Requester) : Bool :=
  s.stk.waiting.any fun x => x.2.1.from_ == from_ && x.2.1.write

end Sys2Proof.Machine
end

