-- ==== Sys2Proof/Machine/Acquire.lean ====
section
/-! DEFINITION. The Archive's folios: admission, arming, the streams, staging, lines and header in DRAM, trigger
conditions, and the ends of a recording (chapter 13). The Archive's commands stand in Archive.lean. -/

namespace Sys2Proof.Machine

/-! ## Configuration of a folio (R336) -/

/-- A live field of folio `f`, at an offset of its slot. -/
def fcfg (s : State) (f : Fin 64) (off lsb width : Nat) : Nat :=
  live s (folioPage f) (folioSlot f + off) lsb width

def folioEnable (s : State) (f : Fin 64) : Bool := fcfg s f 0x000 0 1 == 1
def folioTrigEn (s : State) (f : Fin 64) (src : Nat) : Bool := fcfg s f 0x000 (16 + src) 1 == 1
def folioBase (s : State) (f : Fin 64) : Nat := fcfg s f 0x010 16 16 * 2 ^ 16 + fcfg s f 0x014 0 9 * 2 ^ 32
def folioSize (s : State) (f : Fin 64) : Nat := fcfg s f 0x018 0 26 * 65536
def folioPre (s : State) (f : Fin 64) : Nat := fcfg s f 0x020 0 32 + fcfg s f 0x024 0 16 * 2 ^ 32
def folioPost (s : State) (f : Fin 64) : Nat := fcfg s f 0x028 0 32 + fcfg s f 0x02C 0 16 * 2 ^ 32

/-- The profile of a channel, 0 for none. -/
def folioProfile (s : State) (f : Fin 64) (g : ChanNo) : Nat :=
  fcfg s f (0x060 + 4 * (g.val / 16)) (2 * (g.val % 16)) 2

/-- Profile `p` stores kind `k` (ARC_F_ABS_p). -/
def folioKind (s : State) (f : Fin 64) (p k : Nat) : Bool := fcfg s f (0x038 + 12 * (p - 1)) k 1 == 1

/-- The committed window of a fast kind in a profile (ARC_F_WINA_p, ARC_F_WINB_p). -/
def folioWindow (s : State) (f : Fin 64) (p k : Nat) : Nat :=
  fcfg s f (0x030 + 12 * (p - 1) + 4 * (k / 2)) (16 * (k % 2)) 16 + 1

/-- N of a channel's precision stream (R308), with PDEC as it stands. -/
def precN (s : State) (g : ChanNo) : Nat := 20 * 2 ^ (s.chan g).meas.prec.pdec

/-- The streams that a folio's configuration names, in the order of R315: channel, kind and committed window. -/
def folioStreams (s : State) (f : Fin 64) : List (ChanNo × Fin 5 × Nat) :=
  (allFin 512).flatMap fun g =>
    let p := folioProfile s f g
    if p = 0 then []
    else
      (allFin 5).filterMap fun k =>
        if folioKind s f p k.val then
          some (g, k, if k.val = 4 then precN s g else folioWindow s f p k.val)
        else none

/-! ## The Lending budget (R310 to R314) -/

def ceilDiv (a b : Nat) : Nat := if b = 0 then 0 else (a + b - 1) / b

/-- The effective window under shift `k`. -/
def effWindow (k w : Nat) : Nat := min 65536 (w * 2 ^ k)

/-- The cost of a stream under shift `k` (R310). -/
def streamCost (k : Nat) (x : ChanNo × Fin 5 × Nat) : Nat :=
  if x.2.1.val = 4 then 8000000 else ceilDiv 80000000 (effWindow k x.2.2)

def folioCost (l : List (ChanNo × Fin 5 × Nat)) (k : Nat) : Nat := (l.map (streamCost k)).sum

/-- Transfers per second of a rate code. -/
def rateMt (r : BitVec 2) : Nat :=
  if r = 0 then 4800000000 else if r = 1 then 5600000000 else 6400000000

/-- Subchannels of the map that are fenced. -/
def fencedCount (k : Stacks) : Nat :=
  ((allFin 16).filter fun i => decide ((k.subs[i]).state = SubState.fenced)).length

/-- The peak in B/s (R311, R370, R449). -/
def arcPeak (s : State) : Nat :=
  if !domUp s 2 || !s.stk.initDone || s.stk.rateBusy then 0
  else 4 * rateMt s.stk.liveRate * (nSub s.stk - fencedCount s.stk)

def arcBudget (s : State) : Nat := arcPeak s * 7 / 10

/-- Costs of the admitted folios. -/
def arcAdmitted (s : State) : Nat :=
  ((allFin 64).map fun f => if (s.folio f).admitted then (s.folio f).cost else 0).sum

/-- OVERCOMMIT clears once the admitted costs fit (R314). -/
def arcRecheck (s : State) : State :=
  if arcAdmitted s ≤ arcBudget s then s.modArchive fun a => { a with overcommit := false } else s

/-- The peak has fallen at a fence or a rate change (R314). -/
def arcPeakFell (s : State) : State :=
  if arcBudget s < arcAdmitted s then
    setEvt (s.modArchive fun a => { a with overcommit := true }) .archive 4
  else arcRecheck s

/-- Data lines of a region (chapter 13, "The region"). -/
def dataLines (size : Nat) : Nat := (size - 65536) / 64

/-- The smallest shift at which the folio fits beside the other admitted folios (R312). -/
def findShift (s : State) (f : Fin 64) (l : List (ChanNo × Fin 5 × Nat)) : Option Nat :=
  let mine := if (s.folio f).admitted then (s.folio f).cost else 0
  let others := arcAdmitted s - mine
  (List.range 17).find? fun k => decide (folioCost l k + others ≤ arcBudget s)

/-- The lowest refusal cause that holds, if one does (R313). -/
def refuseCauseOf (s : State) (f : Fin 64) (l : List (ChanNo × Fin 5 × Nat)) : Option Nat :=
  if (findShift s f l).isNone then some 1
  else if dataLines (folioSize s f) < 2 * l.length then some 2
  else if s.stk.cap < folioBase s f + folioSize s f then some 3
  else if l.isEmpty then some 4
  else none

/-- Admission of a folio whose configuration a commit has changed (R312, R313). -/
def folioAdmit (f : Fin 64) (s : State) : State :=
  let ended := decide ((s.folio f).state = 6)
  if !folioEnable s f then
    arcRecheck (s.modFolio f fun x =>
      { x with state := 0, admitted := false, cost := 0, refused := false, refuseCause := 0 })
  else
    let l := folioStreams s f
    match refuseCauseOf s f l with
    | some c =>
      let s1 := s.modFolio f fun x =>
        { x with
          state := 0, admitted := false, cost := 0, shift := 0, refused := true
          refuseCause := BitVec.ofNat 4 c, streamCount := l.length }
      arcRecheck (setEvt (s1.modArchive fun a => { a with lastFolio := BitVec.ofNat 6 f.val }) .archive 1)
    | none =>
      let k := (findShift s f l).getD 0
      let s1 := s.modFolio f fun x =>
        { x with
          state := if ended then 6 else 1
          admitted := true, cost := folioCost l k, shift := k, refused := false
          refuseCause := 0, streamCount := l.length, arms := 0 }
      let s2 :=
        if k = 0 then s1
        else setEvt (s1.modArchive fun a => { a with lastFolio := BitVec.ofNat 6 f.val }) .archive 0
      arcRecheck s2

/-! ## Recording -/

def anyRecording (s : State) : Bool := (allFin 64).any fun f => recording (s.folio f)

/-- Values per line (R316) and bytes per value. -/
def perLine (kind : Fin 5) : Nat := if kind.val = 4 then 16 else 32
def valBytes (kind : Fin 5) : Nat := if kind.val = 4 then 4 else 2

/-- Fast samples per line (R315). -/
def lineSamples (kind : Fin 5) (w : Nat) : Nat := perLine kind * w

/-- Lines that a depth needs (R315). -/
def linesFor (l : List (Fin 5 × Nat)) (d : Nat) : Nat :=
  (l.map fun x => ceilDiv d (lineSamples x.1 x.2) + 1).sum

/-- The largest depth below 2^n above `d` that fits in `a` lines, bit by bit. -/
def growDepth (l : List (Fin 5 × Nat)) (a n d : Nat) : Nat :=
  match n with
  | 0 => d
  | k + 1 => growDepth l a k (if linesFor l (d + 2 ^ k) ≤ a then d + 2 ^ k else d)

/-- D of R315: no region holds 2^57 samples. -/
def folioDepth (l : List (Fin 5 × Nat)) (a : Nat) : Nat := growDepth l a 57 0

/-- The channel offset o_c of a skew (R334). -/
def chanOffset (skew : BitVec 16) : Int := (skew.toInt + 8) / 16

/-- A stream laid out at arming. -/
def mkStream (s0 d b : Nat) (g : ChanNo) (k : Fin 5) (w : Nat) : Stream :=
  { chan := g, kind := k, window := w, len := ceilDiv d (lineSamples k w) + 1, base := b, taken := 0, sum := 0,
    lo := 0, hi := 0, first := 0, clipHi := false, clipLo := false, lineNo := none, packed := [], upTo := s0 }

/-- The sub-rings one after another from an address (R315). -/
def layStreams (s0 d b : Nat) (l : List (ChanNo × Fin 5 × Nat)) : List Stream :=
  match l with
  | [] => []
  | (g, k, w) :: rest =>
    let st := mkStream s0 d b g k w
    st :: layStreams s0 d (b + 64 * st.len) rest

/-! ## The header (R318) -/

/-- `n` bytes of a two's complement or unsigned number. -/
def intBytes (n : Nat) (x : Int) : List Byte := leBytes n (x % (256 ^ n : Int)).toNat

def allOnesBytes (n : Nat) : List Byte := List.replicate n 0xFF

def optBytes (n : Nat) (x : Option Nat) : List Byte := (x.map (leBytes n)).getD (allOnesBytes n)

/-- Bytes 0x00 to 0x4F of the header. (DEDUCED: log entry 79) -/
def headerFixed (f : Fin 64) (x : Folio) : List Byte :=
  leBytes 4 1 ++ leBytes 4 f.val ++ leBytes 4 x.recArms.toNat ++ leBytes 4 (x.state.val + 16 * x.endCause.toNat) ++
  leBytes 8 x.s0 ++ leBytes 8 x.depth ++ leBytes 8 x.preEff ++ leBytes 8 x.postEff ++ optBytes 8 x.trigPoint ++
  leBytes 4 (x.primary.toNat + 65536 * x.mask.toNat) ++ leBytes 4 x.recShift ++
  (if recording x then allOnesBytes 8 else optBytes 8 x.last) ++ leBytes 4 x.streams.length ++
  leBytes 4 (x.scaleLog.length + if x.scaleOver then 2 ^ 31 else 0)

def scaleBytes (e : Nat × Nat × Nat × Nat) : List Byte :=
  leBytes 8 e.1 ++ leBytes 2 e.2.1 ++ leBytes 1 e.2.2.1 ++ leBytes 1 e.2.2.2 ++ leBytes 4 0

def streamBytes (x : Stream) : List Byte :=
  leBytes 2 x.chan.val ++ leBytes 1 x.kind.val ++ leBytes 1 0 ++ leBytes 4 x.window ++ leBytes 8 x.len

/-- A list of bytes followed by zeros up to a length. -/
def padTo (n : Nat) (l : List Byte) : List Byte := l ++ List.replicate (n - l.length) 0

/-- The 64 KiB of the header. -/
def headerBytes (f : Fin 64) (x : Folio) : List Byte :=
  padTo 0x10000
    (padTo 0x1000
      (padTo 0x500 (padTo 0x100 (headerFixed f x) ++ x.offsets.flatMap (intBytes 2)) ++
        x.scaleLog.flatMap scaleBytes) ++
      x.streams.flatMap streamBytes)

/-- The tag of a line (R317). -/
def lineTagOf (index kind chan : Nat) : BitVec 56 :=
  BitVec.ofNat 56 (index % 2 ^ 44 + kind * 2 ^ 44 + chan * 2 ^ 47)

/-- A line goes to Stacks through P0. -/
def arcWriteLine (f : Fin 64) (line : Nat) (bytes : List Byte) (tag : BitVec 56) (s : State) : State :=
  writeReq 0 (plainReq (.archive f.val) line (bytes.zipIdx.map fun x => (x.2, x.1)) tag false false) noErrs s

/-- The header goes to Stacks. (DEDUCED: log entry 79; DESIGN CHOICE: log entry 81) -/
def writeHeader (f : Fin 64) (s : State) : State :=
  let x := s.folio f
  let h := headerBytes f x
  (s.modFolio f fun x => { x with hdrAt := none }).each (List.range 1024) fun i =>
    arcWriteLine f (x.base / 64 + i) ((h.drop (64 * i)).take 64) (lineTagOf f.val 7 0x1FF)

/-- The headers of arms of earlier ticks go to Stacks. (DESIGN CHOICE: log entry 81) -/
def sendHeaders (s : State) : State :=
  s.each (allFin 64) fun f s =>
    match (s.folio f).hdrAt with
    | some t => if domUp s 3 && decide (t < s.tick) then writeHeader f s else s
    | none => s

/-! ## Arming (R321, R333) -/

/-- A first sample that no line has. -/
def noStart : Nat := 2 ^ 64

/-- The lines of an earlier recording that are still with Stacks. -/
def oldLines (s : State) (f : Fin 64) (x : Folio) : List (Nat × Nat) :=
  (x.flying.filter fun y => writeUnderWay s (.archive f.val) y.1).map fun y => (y.1, noStart)

/-- The folio as an arm at system time `now` leaves it. -/
def armedFolio (s : State) (f : Fin 64) (x : Folio) : Folio :=
  let s0 := (s.time.toNat + 4) / 4
  let l := (folioStreams s f).map fun y =>
    (y.1, y.2.1, if y.2.1.val = 4 then y.2.2 else effWindow x.shift y.2.2)
  let d := folioDepth (l.map Prod.snd) (dataLines (folioSize s f))
  let pre := min (folioPre s f) d
  let post := min (folioPost s f) (d - pre)
  { x with
    state := if pre = 0 then 3 else 2
    flushed := false, endCause := 0, endPend := none
    preClamped := decide (pre ≠ folioPre s f), postClamped := decide (post ≠ folioPost s f)
    primary := 0, mask := 0, ignored := 0, arms := x.arms + 1, recArms := x.arms + 1, recShift := x.shift,
    armTick := some s.tick
    s0 := s0, last := none, trigSample := none, depth := d, preEff := pre, postEff := post, trigPoint := none
    horizon := s0, base := folioBase s f, streams := layStreams s0 d (folioBase s f + 0x10000) l
    offsets := (allFin 512).map fun g => chanOffset (s.acc.chans[g]).coefs.skew
    scaleLog := [], scaleOver := false, flushPend := false, epoch := x.epoch + 1, dueAt := 4 * (s0 + pre)
    samples := [], precs := [], flying := oldLines s f x, hdrAt := some s.tick }

/-- An arm takes effect in IDLE, FILLING, READY, COMPLETE and ENDED. -/
def armAllowed (x : Folio) : Bool := x.state != 0 && x.state != 4

/-- The vector of the Archive page has a pending message. -/
def arcPend (s : State) : Bool :=
  s.host.msix[(⟨(s.page .archive).vec.toNat, (s.page .archive).vec.isLt⟩ : Fin 64)].pend

/-- A folio clamps PRE or POST at arming (R333). -/
def depthClamped (f : Fin 64) (s : State) : State :=
  setEvt (s.modArchive fun a => { a with lastFolio := BitVec.ofNat 6 f.val }) .archive 2

/-- The mark of the arm that the folio has taken in the present tick. -/
def markNow (s : State) (f : Fin 64) : Option ArmMark :=
  if (s.folio f).armTick = some s.tick then s.archive.armSnap.find? fun z => z.folio == f else none

/-- The marks of the other arms of the present tick. -/
def otherMarks (f : Fin 64) (s : State) : List ArmMark :=
  s.archive.armSnap.filter fun z => decide ((s.folio z.folio).armTick = some s.tick) && z.folio != f

/-- Two arms of a folio in one tick leave one mark. -/
def mergeMark (first : Option ArmMark) (y : ArmMark) : ArmMark :=
  match first with
  | none => y
  | some x =>
    { x with
      clamped := x.clamped || y.clamped, msgAt := x.msgAt.or y.msgAt, pend := x.pend || y.pend,
      woke := x.woke || y.woke }

/-- What an arm that led from `s` to `s1` has changed outside its folio, whose state before it is `x`. (DESIGN CHOICE:
log entry 81) -/
def armMark (f : Fin 64) (x : Folio) (s s1 : State) : ArmMark :=
  { folio := f, before := x, lastFolio := s.archive.lastFolio
    clamped := !(s.page .archive).evt.getLsbD 2 && (s1.page .archive).evt.getLsbD 2
    msgAt := if s.out.msgs.length < s1.out.msgs.length then some s.out.msgs.length else none
    pend := arcPend s1 && !arcPend s, woke := s1.stk.srefExit && !s.stk.srefExit }

/-- An arm reaches a folio (R321). A stop of the same tick discards it (R322); it starts the exit from self-refresh
(R365). (DESIGN CHOICE: log entry 81) -/
def folioArm (f : Fin 64) (s : State) : State :=
  let x := s.folio f
  if x.stopTick == some s.tick then s
  else if !armAllowed x then memWake s
  else
    let s1 := (memWake s).modFolio f (armedFolio s f)
    let y := s1.folio f
    let s2 := if y.preClamped || y.postClamped then depthClamped f s1 else s1
    s2.modArchive fun a => { a with armSnap := otherMarks f s2 ++ [mergeMark (markNow s f) (armMark f x s s2)] }

/-! ## Causes found in the core (R324) -/

/-- The folio stores a stream of the channel, of its fast lane or its precision stream. -/
def storesFast (g : ChanNo) (x : Folio) : Bool := x.streams.any fun t => t.chan == g && t.kind.val != 4
def storesPrec (g : ChanNo) (x : Folio) : Bool := x.streams.any fun t => t.chan == g && t.kind.val == 4
def storesBay (b : BayNo) (x : Folio) : Bool := x.streams.any fun t => bayOf t.chan == b

/-- A cause that the core has still to act on is noted on recording folios. -/
def noteEnd (test : Folio → Bool) (cause : Fin 6) (s : State) : State :=
  s.modArchive fun a =>
    { a with
      folios := a.folios.map fun x =>
        if recording x && test x then { x with endPend := x.endPend.or (some cause) } else x }

/-! ## Staging (R302, R325) -/

/-- Words that a staging queue holds (R288). -/
def stagingWords : Nat := 2048

/-- A word enters a staging queue of channel `g`; a full queue loses its oldest word. -/
def stageWord (g : ChanNo) (prec : Bool) (w : StgWord) (s : State) : State :=
  let q := queuePut stagingWords (if prec then (s.chan g).stgPrec else (s.chan g).stgFast) w
  let s1 := s.modChan g fun c => if prec then { c with stgPrec := q.1 } else { c with stgFast := q.1 }
  if q.2.isNone then s1
  else
    let s2 := s1.modArchive fun a =>
      { a with
        stgLost := a.stgLost + 1
        stgLast := BitVec.ofNat 10 (g.val + if prec then 512 else 0) }
    let s3 := detect (setEvt s2 .archive 3) .archive (g.val + if prec then 512 else 0) 0x12 0 clsLasting
    noteEnd (fun x => if prec then storesPrec g x else storesFast g x) 3 s3

/-! ## Values of the fast abstracts (R307 to R309) -/

/-- A sample joins the window in progress. -/
def winTake (code : Nat) (t : Stream) : Stream :=
  if t.taken = 0 then
    { t with
      taken := 1, sum := code, lo := code, hi := code, first := code, clipHi := code == 0xFFFF, clipLo := code == 0 }
  else
    { t with
      taken := t.taken + 1, sum := t.sum + code, lo := min t.lo code, hi := max t.hi code
      clipHi := t.clipHi || code == 0xFFFF, clipLo := t.clipLo || code == 0 }

/-- The value of the samples taken. -/
def winValue (t : Stream) : Nat :=
  match t.kind.val with
  | 0 => t.first
  | 1 => if t.clipHi then 0xFFFF else if t.clipLo then 0 else (t.sum + t.taken / 2) / t.taken
  | 2 => t.lo
  | _ => t.hi

/-- Fast sample `n` with its code reaches one stream: the stream after it, and the value index and value that it
completes. -/
def streamSample (n code : Nat) (last : Option Nat) (t : Stream) : Stream × Option (Nat × Nat) :=
  let t1 := winTake code t
  if n % t1.window = t1.window - 1 ∨ last = some n then
    ({ t1 with taken := 0 }, some (n / t1.window, winValue t1))
  else (t1, none)

/-- Judging lag J of a folio (R331): ARC_NDK_LAG when a Ndolek bit of TRIG_EN is 1. (DESIGN CHOICE: log entry 80;
DEDUCED: log entry 83) -/
def judgeLag (s : State) (f : Fin 64) : Nat :=
  if fcfg s f 0x000 20 8 ≠ 0 then s.archive.ndkLag.toNat else 0

/-- The folio takes samples: it records, or has ended with all samples up to E to be stored. -/
def taking (x : Folio) : Bool := recording x || (x.flushPend && x.endCause.toNat < 3)

/-- Sample `n` lies at or before E, where E is known. -/
def upToLast (x : Folio) (n : Nat) : Bool :=
  match x.last with | some e => decide (n ≤ e) | none => true

/-- A sample or value of sample `n` on can belong to the recording no more, or must (R309): it is at or before a known
E, or its own sample has been judged. (DESIGN CHOICE: log entry 80) -/
def settled (s : State) (f : Fin 64) (n : Nat) : Bool :=
  (s.folio f).last.isSome || decide (4 * n + 12 + judgeLag s f < s.time.toNat)

/-- A sample that lies within the recording reaches the streams of its channel, and the values that it completes are
staged. -/
def sampleIn (f : Fin 64) (y : ChanNo × Nat × Nat) (s : State) : State :=
  let x := s.folio f
  if !(upToLast x y.2.1) then s
  else
    let upd := x.streams.map fun t =>
      if t.chan == y.1 && t.kind.val != 4 then streamSample y.2.1 y.2.2 x.last t else (t, none)
    let s1 := s.modFolio f fun x => { x with streams := upd.map Prod.fst }
    s1.each (upd.filterMap fun z => z.2.map fun v => (z.1.kind, v)) fun z =>
      stageWord y.1 false { folio := f, epoch := x.epoch, kind := z.1, index := z.2.1, value := BitVec.ofNat 32 z.2.2 }

/-- A precision value: channel, value index, its first sample, word. -/
def precIn (f : Fin 64) (y : ChanNo × Nat × Nat × Word) (s : State) : State :=
  let x := s.folio f
  if upToLast x y.2.2.1 then
    stageWord y.1 true { folio := f, epoch := x.epoch, kind := 4, index := y.2.1, value := y.2.2.2 } s
  else s

/-- The samples and precision values that are settled go on to the streams, in their order. (DESIGN CHOICE: log entry
80) -/
def releaseSamples (f : Fin 64) (s : State) : State :=
  let x := s.folio f
  let now := x.samples.filter fun y => settled s f y.2.1
  let pnow := x.precs.filter fun y => settled s f y.2.2.1
  if now.isEmpty && pnow.isEmpty then s
  else
    let s1 := s.modFolio f fun x =>
      { x with
        samples := x.samples.filter fun y => !settled s f y.2.1, precs := x.precs.filter fun y => !settled s f y.2.2.1 }
    (s1.each now (sampleIn f)).each pnow (precIn f)

/-- A change of folio `f`, and of what a stop of this tick would put back (R322). -/
def State.modFolioBoth (s : State) (f : Fin 64) (h : Folio → Folio) : State :=
  s.modArchive fun a =>
    { a with
      folios := vmod a.folios f h
      armSnap := a.armSnap.map fun z => if z.folio = f then { z with before := h z.before } else z }

/-- The folio records sample `n` (R309). -/
def records (x : Folio) (n : Nat) : Bool := taking x && decide (x.s0 ≤ n) && upToLast x n

/-- Fast sample `n` of channel `g` reaches folio `f`. -/
def folioSample (g : ChanNo) (n code : Nat) (f : Fin 64) (s : State) : State :=
  releaseSamples f (s.modFolioBoth f fun x =>
    if records x n && storesFast g x then { x with samples := x.samples ++ [(g, n, code)] } else x)

/-! ## Ends of a recording (R322 to R327) -/

/-- The last sample before the present tick. -/
def lastSampleBefore (s : State) : Nat := (s.time.toNat + 3) / 4 - 1

/-- A recording ends into ENDED with its last sample (R324, R327). -/
def folioEndAs (f : Fin 64) (cause : Nat) (last : Nat) (s : State) : State :=
  if recording (s.folio f) then
    idleNow (raise
      (releaseSamples f (s.modFolio f fun x =>
        { x with
          state := 6, endCause := BitVec.ofNat 4 cause, endPend := none
          last := some (match x.last with | some e => min e last | none => last), flushPend := true }))
      (folioSid f 2))
  else s

/-- Ends with causes 3 to 5: E is the last sample whose lines are all in DRAM, and lines that are not there yet are
not written (R324). (DEDUCED: log entry 79) -/
def folioEndEarly (f : Fin 64) (cause : Nat) (s : State) : State :=
  let x := s.folio f
  if recording x then
    let s1 := dropWrites (.archive f.val) (x.flying.map Prod.fst) s
    folioEndAs f cause (x.horizon - 1) (s1.modFolio f fun y => { y with flying := [], samples := [], precs := [] })
  else s

/-- A folio whose PRE or POST the last arming clamped. -/
def clampedNow (s : State) (f : Fin 64) : Bool := (s.folio f).preClamped || (s.folio f).postClamped

/-- The event of an undone clamping, and the message that it called for, are taken back. -/
def undoClamp (x : ArmMark) (s : State) : State :=
  let v : Fin 64 := ⟨(s.page .archive).vec.toNat, (s.page .archive).vec.isLt⟩
  let s1 := s.modPage .archive fun h => { h with evt := h.evt &&& ~~~(bit1 2), setBits := h.setBits &&& ~~~(bit1 2) }
  let s2 := match x.msgAt with
    | some n => s1.modOut fun o => { o with msgs := cutSegment n (n + 1) o.msgs }
    | none => s1
  if x.pend then s2.modHost fun h => { h with msix := vmod h.msix v fun e => { e with pend := false } } else s2

/-- The arm that a folio took in this tick is discarded (R322): what it changed outside the folio is undone, unless
another arm of the tick does the same. (DESIGN CHOICE: log entry 81) -/
def armUndo (f : Fin 64) (x : ArmMark) (s : State) : State :=
  let others := otherMarks f s
  let s1 := s.modFolio f fun _ => x.before
  let s2 := s1.modArchive fun a =>
    { a with
      lastFolio := if a.lastFolio = BitVec.ofNat 6 f.val then x.lastFolio else a.lastFolio
      armSnap := others.map fun z =>
        { z with
          lastFolio := if z.lastFolio = BitVec.ofNat 6 f.val then x.lastFolio else z.lastFolio
          clamped := z.clamped || (x.clamped && clampedNow s z.folio), msgAt := z.msgAt.or x.msgAt
          pend := z.pend || x.pend, woke := z.woke || x.woke } }
  let s3 := if x.clamped && !(others.any fun z => clampedNow s z.folio) then undoClamp x s2 else s2
  if x.woke && others.isEmpty && !(s3.stk.waiting.any fun y => y.1 != 4) then
    s3.modStacks fun k => { k with srefExit := false }
  else s3

/-- A stop reaches a folio (R322): an arm of the same tick is discarded first. (DESIGN CHOICE: log entry 81) -/
def folioStopOp (f : Fin 64) (s : State) : State :=
  let s1 := match markNow s f with
    | some x => armUndo f x s
    | none => s
  (folioEndAs f 1 (lastSampleBefore s1) s1).modFolio f fun x => { x with stopTick := some s.tick }

/-- Folios that satisfy a test end early (R433, R449). -/
def folioEndWhere (test : Folio → Bool) (cause : Nat) (s : State) : State :=
  s.each (allFin 64) fun f s => if test (s.folio f) then folioEndEarly f cause s else s

/-! ## Level conditions (R330, R334) -/

/-- The point of a crossing at sample `n`, in 1/64 sample of the channel's own samples. -/
def crossing (edge level n c0 c1 : Nat) : Option Nat :=
  let rising := decide (c0 < level) && decide (level ≤ c1) && edge % 2 == 1
  let falling := decide (level < c0) && decide (c1 ≤ level) && decide (2 ≤ edge)
  if rising then some (64 * (n - 1) + ceilDiv (64 * (level - c0)) (c1 - c0))
  else if falling then some (64 * (n - 1) + ceilDiv (64 * (c0 - level)) (c0 - c1))
  else none

/-- A condition whose trigger sample has been judged (R332). (DEDUCED: log entry 85) -/
def lateCond (x : Folio) (n : Nat) : Folio :=
  let counts :=
    if x.state = 2 ∨ x.state = 3 then true
    else if x.state = 4 then decide (n ≤ (x.trigSample.getD 0)) else false
  if counts then { x with ignored := satInc x.ignored } else x

/-- The tick at which the folio's last arm reached it lies `d` ticks back at least. (DEDUCED: log entry 85) -/
def armedFor (s : State) (x : Folio) (d : Nat) : Bool :=
  match x.armTick with | some t => decide (t + d ≤ s.tick) | none => false

/-- A condition of source `src` at trigger point `t` is presented to folio `f` (R329, R332): it awaits the judging of
its sample, or comes after it. (DEDUCED: log entry 85) -/
def presentCond (src : Nat) (t : Int) (f : Fin 64) (s : State) : State :=
  if !folioTrigEn s f src || decide (t < 0) then s
  else
    let n := t.toNat / 64
    let due := 4 * n + 12 + judgeLag s f
    let now := s.time.toNat
    s.modFolio f fun x =>
      if due < now ∨ (due = now ∧ x.judged = n + 1) then
        if armedFor s x (now - due) then lateCond x n else x
      else
        { x with
          conds := x.conds.filter (fun c => decide (now ≤ 4 * (c.2 / 64) + 12 + judgeLag s f)) ++ [(src, t.toNat)] }

/-- The level conditions of a folio at sample `n` of channel `g`. -/
def folioLevels (g : ChanNo) (n c0 c1 : Nat) (f : Fin 64) (s : State) : State :=
  s.each [(12, 0x004), (13, 0x008)] fun y s =>
    if fcfg s f y.2 0 9 == g.val then
      match crossing (fcfg s f y.2 12 2) (fcfg s f y.2 16 16) n c0 c1 with
      | some p => presentCond y.1 ((p : Int) + ((s.folio f).offsets[g.val]?).getD 0) f s
      | none => s
    else s

/-- A corrected fast sample `n` of channel `g` reaches the Archive, with the code before it and its own. -/
def archiveFast (g : ChanNo) (n c0 c1 : Nat) (s : State) : State :=
  if !domUp s 3 then s
  else
    s.each (allFin 64) fun f s => folioLevels g n c0 c1 f (folioSample g n c1 f s)

/-- A precision value of channel `g`, whose second period ends at system time `bound` (R308, R309). -/
def archivePrec (g : ChanNo) (bound n : Nat) (w : Word) (s : State) : State :=
  if !domUp s 3 || n == 0 || decide (bound < 4 * n) then s
  else
    let v := bound / (4 * n) - 1
    s.each (allFin 64) fun f s =>
      releaseSamples f (s.modFolioBoth f fun x =>
        if taking x && storesPrec g x && decide (x.s0 < (v + 1) * n) && upToLast x (v * n) then
          { x with precs := x.precs ++ [(g, v, v * n, w)] }
        else x)

/-- An event of R185 on a channel: the scale log of each folio that maps it (R319). -/
def archiveScale (g : ChanNo) (n cause val : Nat) (s : State) : State :=
  s.each (allFin 64) fun f s =>
    let x := s.folio f
    if recording x && folioProfile s f g != 0 then
      if x.scaleLog.length < 128 then
        s.modFolio f fun x => { x with scaleLog := x.scaleLog ++ [(n, g.val, cause, val)] }
      else s.modFolio f fun x => { x with scaleOver := true }
    else s

/-- PDEC changes on a channel: folios that store its precision stream end with cause 5 (R324). (DEDUCED: log entry 82)
-/
def archivePdec (g : ChanNo) (s : State) : State := folioEndWhere (fun x => recording x && storesPrec g x) 5 s

/-! ## Lines (R316, R317, R326) -/

/-- The line in progress of a stream goes to Stacks. -/
def flushLine (f : Fin 64) (i : Nat) (s : State) : State :=
  match (s.folio f).streams[i]? with
  | none => s
  | some t =>
    match t.lineNo with
    | none => s
    | some n =>
      let bytes := (List.range 64).map fun o => (reqByte t.packed o).getD 0
      let line := t.base / 64 + n % t.len
      let s1 := s.modFolio f fun x =>
        { x with
          flying := x.flying ++ [(line, max x.s0 (n * lineSamples t.kind t.window))]
          streams := x.streams.mapIdx fun j u =>
            if j = i then { u with
              lineNo := none, packed := [], upTo := (n + 1) * lineSamples u.kind u.window } else u }
      arcWriteLine f line bytes (lineTagOf (n * perLine t.kind * t.window) t.kind.val t.chan.val) s1

/-- A value joins the line of stream `i`; a full line goes to DRAM. -/
def packValue (f : Fin 64) (i v : Nat) (w : Word) (s : State) : State :=
  match (s.folio f).streams[i]? with
  | none => s
  | some t =>
    let per := perLine t.kind
    let line := v / per
    let s1 := if t.lineNo.isSome && t.lineNo != some line then flushLine f i s else s
    let e := valBytes t.kind
    let new := (leBytes e w.toNat).zipIdx.map fun y => (e * (v % per) + y.2, y.1)
    let s2 := s1.modFolio f fun x =>
      { x with
        streams := x.streams.mapIdx fun j u =>
          if j = i then { u with lineNo := some line, packed := u.packed ++ new } else u }
    if v % per = per - 1 then flushLine f i s2 else s2

/-- The position of a stream in a folio. -/
def streamIdx (x : Folio) (g : ChanNo) (kind : Nat) : Nat :=
  (x.streams.findIdx? fun t => t.chan == g && t.kind.val == kind).getD x.streams.length

/-- The folio packs a staged word: the word is of its present recording, which no loss has stopped (R324). -/
def packs (x : Folio) (w : StgWord) : Bool := taking x && x.endPend.isNone && w.epoch == x.epoch

/-- The Archive takes the oldest word of a staging queue (R325). -/
def takeStaged (g : ChanNo) (prec : Bool) (s : State) : State :=
  match (if prec then (s.chan g).stgPrec else (s.chan g).stgFast) with
  | [] => s
  | w :: rest =>
    let s1 := s.modChan g fun c => if prec then { c with stgPrec := rest } else { c with stgFast := rest }
    let x := s.folio w.folio
    if domUp s 3 && packs x w then packValue w.folio (streamIdx x g w.kind.val) w.index w.value s1 else s1

/-- What is left of every stream at the end of a recording: the window in progress as a value, and the line in
progress (R309, R327). -/
def flushStreams (f : Fin 64) (s : State) : State :=
  s.each (List.range (s.folio f).streams.length) fun i s =>
    match (s.folio f).streams[i]? with
    | none => s
    | some t =>
      let s1 :=
        if t.taken = 0 then s
        else
          match (s.folio f).last with
          | some e => packValue f i (e / t.window) (BitVec.ofNat 32 (winValue t)) s
          | none => s
      flushLine f i s1

/-- Words of the folio's recording still stand in a staging queue. -/
def stagedFor (s : State) (f : Fin 64) : Bool :=
  let x := s.folio f
  let mine := fun (w : StgWord) => w.folio == f && w.epoch == x.epoch
  x.streams.any fun t => ((s.chan t.chan).stgFast.any mine) || ((s.chan t.chan).stgPrec.any mine)

end Sys2Proof.Machine
end

