-- ==== Sys2Proof/Machine/Shutter.lean ====
section
/-! DEFINITION. The shutter of a channel: its state, its close sources, closing by the tick path and
asynchronously, and requests to open (chapter 3, R80 to R91). -/

namespace Sys2Proof.Machine

/-! ## Events of the channel page (R96, R126, R162, R192, R210) -/

def evOpenRefused : Nat := 0
def evShutClosed : Nat := 1
def evSpanDone : Nat := 2
def evSpanOver : Nat := 3
def evLimited : Nat := 4
def evSpanIgnored : Nat := 5
def evProgDone : Nat := 6
def evProgIgnored : Nat := 7
def evCodexMiss : Nat := 8
def evProgFault : Nat := 9
def evLvTrip : Nat := 10
def evAdjusted : Nat := 11
def evFeedbackLost : Nat := 12
def evClampOn : Nat := 13
def evOverrun : Nat := 14
def evSat : Nat := 15
def evOverRange : Nat := 16
def evClip : Nat := 17
def evScaleChanged : Nat := 18
def evCapMerged : Nat := 19
def evVTrip : Nat := 20
def evITrip : Nat := 21
def evClrRefused : Nat := 22
def evMismatch : Nat := 23

/-! ## Live configuration of a channel -/

/-- The live CH_MODE.MODE, RATE and DIV. -/
def liveMode (s : State) (g : ChanNo) : Nat := live s (.channel g) 0x180 0 2
def liveRate (s : State) (g : ChanNo) : Nat := live s (.channel g) 0x180 2 3
def liveDiv (s : State) (g : ChanNo) : Nat := live s (.channel g) 0x180 8 7

/-- Live CH_FORCE_CFG.BOOST (R73). -/
def liveBoost (s : State) (g : ChanNo) : Bool := liveBit s (.channel g) 0x0D0 24

/-- The span that a span field names (CH_FORCE_CFG.SPAN0, SPAN1). -/
def spanField (s : State) (g : ChanNo) (sel : Bool) : Span :=
  spanOf (live s (.channel g) 0x0D0 (if sel then 4 else 0) 3)

/-- The window's CLOSE bit (CH_CMP_CFG.V_CLOSE, I_CLOSE). -/
def winClose (s : State) (g : ChanNo) (w : Win) : Bool :=
  liveBit s (.channel g) 0x288 (match w with | .v => 3 | .i => 11)

/-- Live CH_CMP_CFG.STEST (R207). -/
def stest (s : State) (g : ChanNo) : Nat := live s (.channel g) 0x288 16 3

/-- Live CH_LV_CFG.TRIP_SRC and TRIP_ACT (R123, R124). -/
def tripSrc (s : State) (g : ChanNo) : Nat := live s (.channel g) 0x158 0 2
def tripAct (s : State) (g : ChanNo) : Nat := live s (.channel g) 0x158 2 2

def State.win (s : State) (g : ChanNo) (w : Win) : Window :=
  match w with
  | .v => (s.chan g).winV
  | .i => (s.chan g).winI

def State.modWin (s : State) (g : ChanNo) (w : Win) (f : Window → Window) : State :=
  match w with
  | .v => s.modChan g fun c => { c with winV := f c.winV }
  | .i => s.modChan g fun c => { c with winI := f c.winI }

/-! ## Loop periods (R127) -/

/-- The period of a mode and rate. -/
def loopPeriod (m : Mode) (rate : Nat) : Nat :=
  match m with
  | .fv | .fi => 80 * 2 ^ rate
  | .idle | .measure => 80

def modeOf (n : Nat) : Mode :=
  match n with
  | 0 => .idle
  | 1 => .fv
  | 2 => .fi
  | _ => .measure

def modeCode (m : Mode) : Nat :=
  match m with
  | .idle => 0
  | .fv => 1
  | .fi => 2
  | .measure => 3

/-- The mode forces: FV or FI. -/
def modeForces (m : Mode) : Bool :=
  match m with
  | .fv | .fi => true
  | .idle | .measure => false

/-- The channel's loop period: that of the mode in force, or of the live mode while FIXED is 1 (R89, R127). -/
def chanPeriod (s : State) (g : ChanNo) : Nat :=
  if (s.chan g).force.fixed then loopPeriod (modeOf (liveMode s g)) (liveRate s g)
  else loopPeriod (s.chan g).loop.mode (s.chan g).loop.rate

/-- The present tick is one of the channel's loop-period boundaries. -/
def onLoopBoundary (s : State) (g : ChanNo) : Bool := onMult s (chanPeriod s g)

/-! ## State of the shutter -/

/-- CH_FSTAT.SHUT: 1 from the tick at which the switch begins to turn on to the tick at which a closing
registers (R81, R82, R85, R89). -/
def shutIs (sw : Switch) (now : Nat) : Bool :=
  match sw with
  | .turningOn _ | .on => true
  | .tripped t _ => decide (now < t + 2)
  | .closing t => decide (now ≤ t)
  | .off | .tripClosing _ => false

/-- (DEDUCED: log entry 32) -/
def shut (s : State) (g : ChanNo) : Bool := shutIs (s.chan g).force.switch s.tick

/-- Accession holds the channel (R247). -/
def calHeld (s : State) (g : ChanNo) : Bool :=
  match (s.chan g).hold with
  | some h => h.heldAt.isSome
  | none => false

/-- Accession drives the channel: from F to R (R247). -/
def calDriving (s : State) (g : ChanNo) : Bool :=
  match (s.chan g).hold with
  | some h => h.heldAt.isSome && h.releasedAt.isNone
  | none => false

/-- The lasting source with a cause code is asserted (R80, R208). (DEDUCED: log entry 37) -/
def causeOn (s : State) (g : ChanNo) (k : Nat) : Bool :=
  match k with
  | 1 => (s.chan g).winV.latch != .inside && winClose s g .v && stest s g == 0
  | 2 => (s.chan g).winI.latch != .inside && winClose s g .i && stest s g == 0
  | 3 => (s.chan g).prog.tripped && decide (2 ≤ tripAct s g)
  | 4 => (s.chan g).loop.held
  | 5 => !s.power.rails.getLsbD (bayOf g).val
  | 6 => calHeld s g
  | 8 => !modeForces (modeOf (liveMode s g)) || (s.chan g).force.boostAt == some s.tick
  | _ => false

/-- The asserted lasting sources, lowest first. -/
def causesOn (s : State) (g : ChanNo) : List Nat := [1, 2, 3, 4, 5, 6, 8].filter (causeOn s g)

/-- CH_CLOSE_SRC. -/
def closeSrcWord (s : State) (g : ChanNo) : Word :=
  (causesOn s g).foldl (fun w k => w ||| bit1 k) (if (s.chan g).force.fixed then 1 else 0)

/-- Causes 0x9 and 0xA set no SHUT_CLOSED (R84). -/
def quietCause (k : Nat) : Bool := k == 9 || k == 10

/-! ## Closing (R80 to R84, R90) -/

/-- The tick at which the switch of a first opening begins to turn on (R89). -/
def FirstOpening.onAt (x : FirstOpening) : Nat := x.t0 + (if x.spanChange then 2 * x.period else x.period)

/-- A first opening is in progress whose switch does not begin to turn on in the present tick. (DEDUCED: log entry 31)
-/
def openingNow (s : State) (g : ChanNo) : Bool :=
  match (s.chan g).force.firstOpen with
  | some x => decide (s.tick < x.onAt)
  | none => false

/-- An opening in progress is cancelled by a close source, and an open request of this tick is discarded
(R22, R90). -/
def cancelOpening (s : State) (g : ChanNo) (cause : Nat) : State :=
  let s1 := s.modForce g fun f =>
    { f with
      openReq := if f.openReq = some s.tick then none else f.openReq
      closeTick :=
        match f.closeTick with
        | some (t, c) => if t = s.tick then some (t, min c cause) else some (s.tick, cause)
        | none => some (s.tick, cause) }
  if openingNow s g then
    setEvt (s1.modForce g fun f => { f with firstOpen := none, refuseCause := BitVec.ofNat 4 cause })
      (.channel g) evOpenRefused
  else s1

/-- The SHUT_CLOSED event of a closing with a cause (R84). (DEDUCED: log entry 32) -/
def closedEvt (s : State) (g : ChanNo) (cause : Nat) : State :=
  if quietCause cause then s else setEvt s (.channel g) evShutClosed

/-- SHUT reads 0 from tick `t` on (R143). -/
def noteShut (g : ChanNo) (t : Nat) (s : State) : State := s.modLoop g fun l => { l with leftRun := some t }

/-- A tick-path source asserts at the present tick (R81, R83). (DESIGN CHOICE: log entry 2; DEDUCED: log entry 32) -/
def closeTick (s : State) (g : ChanNo) (cause : Nat) : State :=
  let s := cancelOpening s g cause
  match (s.chan g).force.switch with
  | .turningOn _ | .on =>
    closedEvt
      (noteShut g (s.tick + 1) (s.modForce g fun f =>
        { f with switch := .closing s.tick, causeWas := f.closeCause, closeCause := BitVec.ofNat 4 cause })) g cause
  | .closing t =>
    if t = s.tick then
      closedEvt
        (s.modForce g fun f => { f with closeCause := BitVec.ofNat 4 (min cause f.closeCause.toNat) }) g cause
    else s
  | .tripped t c => s.modForce g fun f => { f with switch := .tripped t (min c cause) }
  | .off | .tripClosing _ => s

/-- An asynchronous source asserts (R82): the switch turns off at once, and the closing registers at the first or
second tick after. (DESIGN CHOICE: log entry 26) -/
def closeAsync (s : State) (g : ChanNo) (cause : Nat) : State :=
  let s := cancelOpening s g cause
  match (s.chan g).force.switch with
  | .turningOn _ | .on => noteShut g (s.tick + 2) (s.modForce g fun f => { f with switch := .tripped s.tick cause })
  | .closing t =>
    if t = s.tick then
      closedEvt
        (s.modForce g fun f => { f with closeCause := BitVec.ofNat 4 (min cause f.closeCause.toNat) }) g cause
    else s
  | .tripped t c => s.modForce g fun f => { f with switch := .tripped t (min c cause) }
  | .off | .tripClosing _ => s

/-- The closing of an asynchronous source registers (R82, R83). (DEDUCED: log entry 33) -/
def registerClose (s : State) (g : ChanNo) : State :=
  match (s.chan g).force.switch with
  | .tripped t c =>
    closedEvt
      (noteShut g s.tick (s.modForce g fun f =>
        { f with switch := .tripClosing t, closeCause := BitVec.ofNat 4 c })) g c
  | _ => s

/-- The switch turns off without help from the core, with cause 0x0 (R442, R498). -/
def closeHardware (s : State) (g : ChanNo) : State :=
  let s := cancelOpening s g 0
  if shut s g then
    closedEvt
      (noteShut g s.tick (s.modForce g fun f => { f with switch := .tripClosing s.tick, closeCause := 0 })) g 0
  else
    match (s.chan g).force.switch with
    | .closing t => s.modForce g fun f => { f with switch := .tripClosing t }
    | _ => s

/-! ## Opening (R85 to R87, R22) -/

/-- An open request reaches the channel: discarded in the tick of a close request. (DEDUCED: log entry 31) -/
def requestOpen (s : State) (g : ChanNo) : State :=
  let f := (s.chan g).force
  if (f.closeTick.map Prod.fst) = some s.tick then s
  else if f.openReq.isSome then s
  else s.modForce g fun f => { f with openReq := some s.tick }

/-- VANA is in its range. -/
def vanaOk (s : State) : Bool := s.power.vana

/-- The switch is still turning off under R81. -/
def stillClosing (s : State) (g : ChanNo) : Bool :=
  match (s.chan g).force.switch with
  | .closing t => decide (s.tick < t + 9)
  | _ => false

/-- Why an open request taken now is refused, if it is (R86). -/
def refusal (s : State) (g : ChanNo) : Option Nat :=
  match causesOn s g with
  | k :: _ => some k
  | [] => if !vanaOk s then some 0xE else if stillClosing s g then some 0xF else none

/-- A refusal or cancellation (R86, R90). (DEDUCED: log entry 31) -/
def refuseOpen (s : State) (g : ChanNo) (cause : Nat) : State :=
  setEvt (s.modForce g fun f => { f with refuseCause := BitVec.ofNat 4 cause }) (.channel g) evOpenRefused

/-- The switch begins to turn on (R85, R89). A close source that asserted in this same tick closes it again
(R24). -/
def turnOn (s : State) (g : ChanNo) : State :=
  let s1 := s.modForce g fun f => { f with switch := .turningOn s.tick }
  match (s.chan g).force.closeTick with
  | some (t, cause) => if t = s.tick then closeTick s1 g cause else s1
  | none => s1

/-- BEN of a Booster channel is high while its shutter is open (R77), and low while Accession drives the channel (R243).
-/
def ben (s : State) (g : ChanNo) : Bool := (s.chan g).force.boostLive && shut s g && !calDriving s g

/-- The drive pair in drive codes, 0x8_0000 for 0 V differential (R61): it follows the DAC while BEN is high, and
DRV_INV inverts its polarity (R77, R88, R96). (DEDUCED: log entry 124) -/
def drivePair (s : State) (g : ChanNo) : Int :=
  let x : Int := ((s.chan g).force.dacCode.toNat : Int) - 0x80000
  if ben s g then (if liveBit s (.channel g) 0x1A0 1 then 0x80000 - x else 0x80000 + x) else 0x80000

/-- The span whose analogue limit bounds the stage: the larger of the two from the make to the break (R66, R71). -/
def limitSpan (s : State) (g : ChanNo) : Span :=
  let f := (s.chan g).force
  match f.spanChange with
  | some x => if spanFs x.old < spanFs x.new then x.new else x.old
  | none => f.spanLive

/-- Bounds of the analogue limit in nA: 1.15, 1.25 (nominal) and 1.35 of the full scale (R66). -/
def analogueLimit (s : State) (g : ChanNo) : Nat × Nat × Nat :=
  let fs := spanFs (limitSpan s g)
  (115 * fs / 100, 125 * fs / 100, 135 * fs / 100)

/-- The span whose internal load a closed Native stage drives, if it does: that of the measure path's scale (R496). -/
def loadSpan (s : State) (g : ChanNo) : Option Span :=
  if (s.chan g).force.boostLive || shut s g then none else some (s.chan g).force.spanLive

end Sys2Proof.Machine
end

