-- ==== Sys2Proof/Machine/Sampling.lean ====
section
/-! DEFINITION. The conditions under which a channel samples: its inputs, pairs, scale and marks at a fast-sample
instant (chapter 6, R165 to R172, R181). -/

namespace Sys2Proof.Machine

/-- The sample of this tick falls while the shutter is closed, or before the switch has reached its on-resistance
(R181, CLOSED). -/
def closedNow (s : State) (g : ChanNo) : Bool :=
  match (s.chan g).force.switch with
  | .turningOn t => decide (s.tick < t + 16)
  | .on | .tripped _ _ => false
  | .closing t => decide (t < s.tick)
  | .off | .tripClosing _ => true

/-- Ticks 0 to L + 15 of a span change (R172). -/
def spanChgNow (s : State) (g : ChanNo) : Bool :=
  match (s.chan g).force.spanChange with
  | some x => decide (x.make ≤ s.tick) && decide (s.tick < x.make + x.period + 16)
  | none => false

/-- Live CH_BOOST_CFG.IRANGE. -/
def irange (s : State) (g : ChanNo) : Fin 2 := if liveBit s (.channel g) 0x1A0 0 then 1 else 0

/-- The pair of the V lane and of the I lane for the inputs and span in force (R170). -/
def pairVNow (s : State) (g : ChanNo) : Pair :=
  if (s.chan g).force.boostLive then (s.chan g).coefs.bvs else (s.chan g).coefs.mv

def pairINow (s : State) (g : ChanNo) : Pair :=
  if (s.chan g).force.boostLive then (s.chan g).coefs.bis[irange s g]
  else (s.chan g).coefs.mi[spanIdx (s.chan g).force.spanLive]

/-- A sample of the present tick with its conditions. (DEDUCED: log entries 40, 57) -/
def sampleNow (s : State) (g : ChanNo) (rawV rawI : BitVec 18) : Inflight :=
  let c := s.chan g
  { tick := s.tick, time := s.time, rawV := rawV, rawI := rawI, pairV := pairVNow s g, pairI := pairINow s g,
    uncal := !c.coefs.loaded, span := c.force.spanLive, boost := c.force.boostLive, flane := c.meas.flane,
    plane := c.meas.plane, spanChg := spanChgNow s g, inputChg := c.meas.inputAt == some s.tick,
    closed := closedNow s g, cal := calHeld s g }

/-- A sample takes its place in the converter, and its pairs are those in use (R168, R170). (DEDUCED: log entry 52) -/
def placeSample (g : ChanNo) (i : Inflight) (s : State) : State :=
  s.modMeas g fun m => { m with inflight := some i, pairV := i.pairV, pairI := i.pairI, uncal := i.uncal }

/-- What acts at the instant of a sample acts on that sample: a sample already taken in the present tick takes
the conditions anew. -/
def resample (g : ChanNo) (s : State) : State :=
  match (s.chan g).meas.inflight with
  | some i => if i.tick = s.tick then placeSample g (sampleNow s g i.rawV i.rawI) s else s
  | none => s

/-- New coefficients apply from a frame boundary (R171). (DEDUCED: log entry 56) -/
def coefApply (g : ChanNo) (s : State) : State :=
  match (s.chan g).coefLoad with
  | some t =>
    if onFrame s && decide (t ≤ s.tick) then
      resample g (s.modChan g fun c => { c with coefs := (s.acc.chans[g]).coefs, coefLoad := none })
    else s
  | none => s

end Sys2Proof.Machine
end

