-- ==== Sys2Proof/Machine/Slew.lean ====
section
/-! DEFINITION. The slew limiter (chapter 3, R62, R92 to R95). -/

namespace Sys2Proof.Machine

/-- Live CH_SLEW_STEP and CH_SLEW_INT. -/
def slewStepSize (s : State) (g : ChanNo) : Nat := live s (.channel g) 0x0C8 0 20
def slewInterval (s : State) (g : ChanNo) : Nat := live s (.channel g) 0x0C4 0 16

/-- The limiter with a new target at tick `t`, for a STEP (R92, R93). -/
def slewRetarget (t step : Nat) (target : BitVec 20) (l : Slew) : Slew :=
  if l.target = target then l
  else if l.next.isSome then { l with target := target }
  else if step = 0 then { l with target := target, out := target }
  else if l.out = target then { l with target := target }
  else { l with target := target, next := some t }

/-- The limiter with its output set at tick `t` (R93): from rest, a difference makes the tick a step tick. -/
def slewSetOut (t step : Nat) (out : BitVec 20) (l : Slew) : Slew :=
  if l.next.isSome then { l with out := out }
  else if out = l.target then { l with out := out }
  else if step = 0 then { l with out := l.target }
  else { l with out := out, next := some t }

/-- One step of the limiter at tick `t` (R92). -/
def slewOneStep (t step interval : Nat) (l : Slew) : Slew :=
  let d := codeInt l.target - codeInt l.out
  if step = 0 ∨ d.natAbs ≤ step then { l with out := l.target, next := none, last := t }
  else if 0 < d then
    { l with out := code20 (codeInt l.out + (step : Int)), next := some (t + interval), last := t }
  else { l with out := code20 (codeInt l.out - (step : Int)), next := some (t + interval), last := t }

/-- SLEW_STEP in tick `t`: the step, if `t` is a step tick and has not been stepped. (DEDUCED: log entry 123) -/
def slewTick (t step interval : Nat) (l : Slew) : Slew :=
  if (l.undo.map Prod.fst) = some t then l
  else
    let l1 := if l.next = some t then slewOneStep t step interval l else l
    { l1 with undo := some (t, l.out, l.next, l.last) }

/-- A change of the limiter that acts before the step of tick `t` (R93): a step already taken in the tick is taken
again. (DEDUCED: log entry 123) -/
def slewBefore (t step interval : Nat) (f : Slew → Slew) (l : Slew) : Slew :=
  match l.undo with
  | some (t0, out, next, last) =>
    if t0 = t then slewTick t step interval (f { l with out := out, next := next, last := last, undo := none })
    else f l
  | none => f l

/-- `slewBefore` with the channel's STEP and INTERVAL. (DEDUCED: log entry 123) -/
def changeSlew (s : State) (g : ChanNo) (f : Slew → Slew) : State :=
  s.modSlew g (slewBefore s.tick (slewStepSize s g) (slewInterval s g) f)

/-- The selected source presents `v` at the limiter input (R62, R93). -/
def setTarget (s : State) (g : ChanNo) (v : Int) : State :=
  let fi := (s.chan g).loop.mode == .fi
  let t := if fi then fiLimit v else v
  let lim := decide (t ≠ v)
  let new := (s.chan g).force.setpt != code20 v || !(s.chan g).force.setptLim
  let s1 := s.modForce g fun f => { f with setptLim := lim, setpt := code20 v }
  let s2 := if lim && new then setEvt s1 (.channel g) evLimited else s1
  changeSlew s2 g (slewRetarget s.tick (slewStepSize s g) (code20 t))

/-- The limiter output is set under R89, R147 or R148. -/
def setSlewOut (s : State) (g : ChanNo) (v : Int) : State :=
  changeSlew s g (slewSetOut s.tick (slewStepSize s g) (code20 v))

/-- The step of the present tick, if it is a step tick (R92). (DEDUCED: log entry 123) -/
def slewStepOp (g : ChanNo) (s : State) : State :=
  s.modSlew g (slewTick s.tick (slewStepSize s g) (slewInterval s g))

/-- A commit has changed INTERVAL during a ramp (R94). (DESIGN CHOICE: log entry 122) -/
def slewNewInterval (t interval : Nat) (l : Slew) : Slew :=
  match l.next with
  | none => l
  | some n =>
    if n = t then l
    else { l with next := some (max t (l.last + interval)) }

end Sys2Proof.Machine
end

