-- ==== Sys2Proof/Machine/Source.lean ====
section
/-! DEFINITION. The four setpoint sources and the value that each presents (chapter 4, R97 to R100), and the
Louvre trip latch (R123 to R125). -/

namespace Sys2Proof.Machine

/-! ## List memory (R105, R106) -/

/-- A list entry after its bay's domain comes up. -/
def entryReset : BitVec 64 := 0x0000000100040000

/-- Entry `i` of channel `g`'s list. -/
def listEntry (s : State) (g : ChanNo) (i : Nat) : BitVec 64 :=
  sparseGet (fun _ => entryReset) (s.bay (bayOf g)).lists (4096 * (inBay g).val + i % 4096)

/-- Fields of an entry (R105). -/
def entrySetpt (e : BitVec 64) : BitVec 20 := e.extractLsb' 0 20
def entryMark (e : BitVec 64) : Bool := e.getLsbD 24
def entryWait (e : BitVec 64) : Bool := e.getLsbD 25
def entryDwell (e : BitVec 64) : Nat := max 1 (e.extractLsb' 32 24).toNat

/-! ## Live program configuration -/

def chanCfg (s : State) (g : ChanNo) (off lsb width : Nat) : Nat := live s (.channel g) off lsb width

/-- CH_SRC.SRC. -/
def srcSel (s : State) (g : ChanNo) : Nat := chanCfg s g 0x100 0 2

def swpStart (s : State) (g : ChanNo) : Nat := chanCfg s g 0x110 0 12
def swpEnd (s : State) (g : ChanNo) : Nat := chanCfg s g 0x110 16 12
def swpAdv (s : State) (g : ChanNo) : Nat := chanCfg s g 0x114 0 2
def swpDunit (s : State) (g : ChanNo) : Nat := chanCfg s g 0x114 4 2
def swpRepeat (s : State) (g : ChanNo) : Nat := chanCfg s g 0x114 16 16
def cdxBase (s : State) (g : ChanNo) : Nat := chanCfg s g 0x120 6 26 * 64 + chanCfg s g 0x124 0 9 * 2 ^ 32
def cdxLen (s : State) (g : ChanNo) : Nat := chanCfg s g 0x128 0 31
def cdxInt (s : State) (g : ChanNo) : Nat := chanCfg s g 0x12C 0 24
def cdxLoop (s : State) (g : ChanNo) : Nat := chanCfg s g 0x130 0 30
def cdxRepeat (s : State) (g : ChanNo) : Nat := chanCfg s g 0x134 0 16
def lvBase (s : State) (g : ChanNo) : Nat := chanCfg s g 0x140 0 20
def lvPulse (s : State) (g : ChanNo) : Nat := chanCfg s g 0x144 0 20
def lvWidth (s : State) (g : ChanNo) : Nat := chanCfg s g 0x148 0 24
def lvPeriod (s : State) (g : ChanNo) : Nat := chanCfg s g 0x14C 0 32
def lvCount (s : State) (g : ChanNo) : Nat := chanCfg s g 0x150 0 24
def lvDelay (s : State) (g : ChanNo) : Nat := chanCfg s g 0x154 0 32
def lvAutoClr (s : State) (g : ChanNo) : Bool := liveBit s (.channel g) 0x158 4

/-- The point at which repeat passes begin (R116). -/
def cdxLoopEff (s : State) (g : ChanNo) : Nat := if cdxLoop s g < cdxLen s g then cdxLoop s g else 0

/-- The Louvre period used (R122). -/
def lvPeriodEff (s : State) (g : ChanNo) : Nat :=
  if lvPeriod s g ≤ lvWidth s g then lvWidth s g + 1 else lvPeriod s g

/-! ## The presented value (R99, R124) -/

/-- The Louvre presents its pulse level. -/
def louvreHigh (s : State) (g : ChanNo) : Bool :=
  let p := (s.chan g).prog
  p.lvHigh && !(p.tripped && p.tripBase && tripAct s g % 2 == 1)

/-- One point of a Codex table read from DRAM through port P1, `none` for poison (R114). -/
def cdxRead (s : State) (g : ChanNo) (i : Nat) : Option Word :=
  let bytes := memBytes s (.codex g) (cdxBase s g + 4 * i) 4
  if bytes.all Option.isSome then some (BitVec.ofNat 32 (leNat (bytes.map fun b => b.getD 0))) else none

/-- Point 0 before the first start: as it was primed, else as DRAM holds it; the limiter's target where it is poison.
(DEDUCED: log entry 125) -/
def cdxPoint0 (s : State) (g : ChanNo) : Nat :=
  let w := match (s.chan g).prog.primed with | (_, w) :: _ => w | [] => cdxRead s g 0
  match w with
  | some w => (w.extractLsb' 0 20).toNat
  | none => (s.chan g).slew.target.toNat

/-- CH_PROG_VAL: the value that the selected source presents, before R62. (DEDUCED: log entry 125) -/
def present (s : State) (g : ChanNo) : Nat :=
  let p := (s.chan g).prog
  match srcSel s g with
  | 0 => chanCfg s g 0x0C0 0 20
  | 1 => if p.swpStarted then p.swpVal.toNat else (entrySetpt (listEntry s g (swpStart s g))).toNat
  | 2 => if p.cdxStarted then p.cdxVal.toNat else cdxPoint0 s g
  | _ => if louvreHigh s g then lvPulse s g else lvBase s g

/-- The limiter's target follows the presented value (R62, R93). -/
def refreshTarget (g : ChanNo) (s : State) : State := setTarget s g (present s g : Int)

/-! ## The Louvre trip latch (R123 to R125) -/

/-- TRIP_SRC connects a window to the trip input. -/
def tripConnected (s : State) (g : ChanNo) (w : Win) : Bool :=
  match w with
  | .v => tripSrc s g == 1 || tripSrc s g == 3
  | .i => tripSrc s g == 2 || tripSrc s g == 3

/-- The trip input is asserted: a connected window's latch is set (R197, R208). -/
def tripInput (s : State) (g : ChanNo) : Bool :=
  stest s g == 0 &&
  ((tripConnected s g .v && (s.chan g).winV.latch != .inside) ||
    (tripConnected s g .i && (s.chan g).winI.latch != .inside))

/-- A clear of the trip latch was carried out in the present tick: the latch as it stood before it. (DEDUCED: log
entry 127) -/
def lvCleared (s : State) (g : ChanNo) : Option (Bool × Option Nat) :=
  match (s.chan g).prog.lvClear with
  | some (t, x) => if t = s.tick then some x else none
  | none => none

/-- The trip latch stays set: the trip input asserts in the tick of a clear (R125). (DEDUCED: log entry 127) -/
def louvreStay (g : ChanNo) (x : Bool × Option Nat) (s : State) : State :=
  refreshTarget g (s.modProg g fun p =>
    { p with tripped := true, tripBase := x.1, tripTick := x.2, lvClear := none })

/-- The trip latch sets (R123), and TRIP_ACT 2 and 3 close the shutter (R124). (DEDUCED: log entries 34, 127) -/
def louvreTrip (g : ChanNo) (s : State) : State :=
  if (s.chan g).prog.tripped then s
  else if let some x := lvCleared s g then louvreStay g x s
  else
    let s1 := s.modProg g fun p =>
      { p with tripped := true, tripBase := false, tripTick := some s.tick, trips := p.trips + 1 }
    let s2 := raiseAsync (setEvt s1 (.channel g) evLvTrip) (chanSid g 0x7)
    if 2 ≤ tripAct s2 g then closeAsync s2 g 3 else s2

/-- The trip latch clears when its input is not asserted (R125). (DEDUCED: log entry 127) -/
def louvreTripClear (g : ChanNo) (s : State) : State :=
  if (s.chan g).prog.tripped && !tripInput s g then
    refreshTarget g (s.modProg g fun p =>
      { p with
        tripped := false, tripBase := false, tripTick := none, lvClear := some (s.tick, p.tripBase, p.tripTick) })
  else s

/-- LV_TRIP_CLEAR: a write of CH_LV_TRIP.CLEAR. -/
def execLvTripClear (g : ChanNo) (s : State) : Ret :=
  .next (request (.channel g) 0x15C .write (louvreTripClear g) s)

end Sys2Proof.Machine
end

