-- ==== Sys2Proof/Machine/Windows.lean ====
section
/-! DEFINITION. The window comparators: raw states, latches, blanking, sampled operation and the digital mirror
(chapter 7). -/

namespace Sys2Proof.Machine

/-! ## Live configuration of a window -/

/-- Offset of the window's threshold word, and place of its bits in CH_CMP_CFG. -/
def thrOff (w : Win) : Nat := match w with | .v => 0x280 | .i => 0x284
def cmpLsb (w : Win) : Nat := match w with | .v => 0 | .i => 8

def thrLo (s : State) (g : ChanNo) (w : Win) : Nat := live s (.channel g) (thrOff w) 0 10
def thrHi (s : State) (g : ChanNo) (w : Win) : Nat := live s (.channel g) (thrOff w) 16 10
def thrHyst (s : State) (g : ChanNo) (w : Win) : Nat := live s (.channel g) (thrOff w) 28 4

def winEnHi (s : State) (g : ChanNo) (w : Win) : Bool := liveBit s (.channel g) 0x288 (cmpLsb w)
def winEnLo (s : State) (g : ChanNo) (w : Win) : Bool := liveBit s (.channel g) 0x288 (cmpLsb w + 1)
def winLatch (s : State) (g : ChanNo) (w : Win) : Bool := liveBit s (.channel g) 0x288 (cmpLsb w + 2)
def winLvClr (s : State) (g : ChanNo) (w : Win) : Bool := liveBit s (.channel g) 0x288 (cmpLsb w + 4)

/-- SAMPLED and SPER (R205). -/
def sampled (s : State) (g : ChanNo) : Bool := liveBit s (.channel g) 0x288 20
def sper (s : State) (g : ChanNo) : Nat := live s (.channel g) 0x28C 0 18

/-- BLANK, ON_LEAD and ON_TRAIL (R202). -/
def blankTicks (s : State) (g : ChanNo) : Nat := live s (.channel g) 0x290 0 16
def onLead (s : State) (g : ChanNo) : Bool := liveBit s (.channel g) 0x290 16
def onTrail (s : State) (g : ChanNo) : Bool := liveBit s (.channel g) 0x290 17

/-- Code of a window's cause, event and source. -/
def winCause (w : Win) : Nat := match w with | .v => 1 | .i => 2
def winEvt (w : Win) : Nat := match w with | .v => evVTrip | .i => evITrip
def winSid (w : Win) : Nat := match w with | .v => 8 | .i => 9

/-- The raw state is outside in an enabled direction. -/
def winOut (s : State) (g : ChanNo) (w : Win) : Bool :=
  match (s.win g w).raw with
  | .inside => false
  | .above => winEnHi s g w
  | .below => winEnLo s g w

/-- The window is blanked at the present tick (R202, R247). -/
def blanked (s : State) (g : ChanNo) (w : Win) : Bool :=
  decide (s.tick < (s.win g w).blankUntil) || calHeld s g

/-! ## Setting and clearing a latch (R197 to R201) -/

/-- The latch sets with the direction of the raw state. (DEDUCED: log entry 134) -/
def latchSet (g : ChanNo) (w : Win) (s : State) : State :=
  let s1 := s.modWin g w fun x =>
    { x with latch := x.raw, count := x.count + 1, setAt := x.setAt ++ [(s.tick, stest s g != 0)] }
  if stest s g ≠ 0 then s1
  else
    let s2 := if winClose s1 g w then closeAsync s1 g (winCause w) else s1
    if tripConnected s2 g w then louvreTrip g s2 else s2

/-- The latch sets if it is not set, the window is not blanked and the direction is enabled. -/
def latchIfOut (g : ChanNo) (w : Win) (s : State) : State :=
  if (s.win g w).latch = .inside && !blanked s g w && winOut s g w then latchSet g w s else s

/-- The latch clears. -/
def latchClear (g : ChanNo) (w : Win) (s : State) : State :=
  s.modWin g w fun x => { x with latch := .inside, clearedAt := some s.tick }

/-- A clear reaches a window (R199, R200). A latch that has set in this tick stays set, and one whose input has left
in this tick sets again. (DEDUCED: log entry 136) -/
def clearWin (g : ChanNo) (w : Win) (s : State) : State :=
  let x := s.win g w
  if x.latch = .inside ∨ !winLatch s g w ∨ (x.setAt.getLast?.map Prod.fst) = some s.tick then s
  else if x.raw = .inside then latchClear g w s
  else if x.leftAt = some s.tick then latchIfOut g w (latchClear g w s)
  else setEvt s (.channel g) evClrRefused

/-- With LATCH at 0 the latch clears by itself while the raw state is inside (R201). (DEDUCED: log entry 35) -/
def selfClear (g : ChanNo) (w : Win) (s : State) : State :=
  let x := s.win g w
  if !winLatch s g w && x.raw = .inside && x.latch ≠ .inside then latchClear g w s else s

/-- The raw state changes (R195). -/
def rawChange (g : ChanNo) (w : Win) (new : Raw) (s : State) : State :=
  let x := s.win g w
  if x.raw = new then s
  else
    let s1 := s.modWin g w fun x =>
      { x with raw := new, leftAt := if x.raw = .inside then some s.tick else x.leftAt }
    if new = .inside then selfClear g w s1 else latchIfOut g w s1

/-- The raw state that an input level gives, under STEST (R195, R207). -/
def rawAt (s : State) (g : ChanNo) (w : Win) (level : Int) : Raw :=
  rawNext thrUnit (s.win g w).raw (thrHi s g w) (thrLo s g w) (thrHyst s g w) (stestLevel (stest s g) level)

/-! ## Blanking (R202, R203) -/

/-- A window is blanked for `n` ticks from the present one. (DEDUCED: log entry 59) -/
def blankFor (g : ChanNo) (w : Win) (n : Nat) (s : State) : State :=
  if n = 0 then s
  else s.modWin g w fun x => { x with blankUntil := max x.blankUntil (s.tick + n), blankPend := true }

def blankBoth (g : ChanNo) (n : Nat) (s : State) : State := blankFor g .i n (blankFor g .v n s)

/-- Blanking of a window ends at the present tick (R203). (DEDUCED: log entry 59) -/
def blankingEnd (g : ChanNo) (w : Win) (s : State) : State :=
  if (s.win g w).blankPend && (s.win g w).blankUntil == s.tick && !blanked s g w then
    latchIfOut g w (s.modWin g w fun x => { x with blankPend := false })
  else s

/-! ## Commands -/

/-- The window that compares the node of a lane: with STEST 1 each window compares the other's (R207). (DEDUCED: log
entry 135) -/
def nodeWin (s : State) (g : ChanNo) (lane : Win) : Win :=
  if stest s g = 1 then (match lane with | .v => .i | .i => .v) else lane

/-- WINDOW_CROSSING: the node of a lane moves to a level, in the mapping of the window that compares it (R195, R204).
In sampled operation the raw state does not follow (R205). (DEDUCED: log entries 59, 135) -/
def windowCrossing (g : ChanNo) (lane : Win) (level : Int) (s : State) : State :=
  let w := nodeWin s g lane
  if !bayUp s (bayOf g) || sampled s g then s else rawChange g w (rawAt s g w level) s

def execWindowCrossing (g : ChanNo) (lane : Win) (level : Int) (s : State) : Ret :=
  .next (windowCrossing g lane level s)

/-- The settings of a window that a resynchronised copy may still record: it comes at the first or second tick after
the setting (R198). (DEDUCED: log entry 134) -/
def settings (s : State) (g : ChanNo) (w : Win) : List (Nat × Bool) :=
  (s.win g w).setAt.dropWhile fun x => decide (x.1 + 2 < s.tick)

/-- TRIP_TIME_RECORD: the resynchronised copy of a setting (R198, R82, R124). A setting made under STEST reaches
neither the shutter, the Louvre nor the fabric (R208). (DESIGN CHOICE: log entry 26; DEDUCED: log entry 134) -/
def tripRecord (g : ChanNo) (w : Win) (s : State) : State :=
  match settings s g w with
  | [] => s
  | (t, test) :: rest =>
    if t < s.tick then
      let s1 := setEvt (s.modWin g w fun x => { x with setAt := rest, time := s.time }) (.channel g) (winEvt w)
      if test then s1
      else
        let s2 := registerClose (raiseNow s1 (chanSid g (winSid w))) g
        if tripConnected s2 g w && (s2.chan g).prog.tripped then
          refreshTarget g (s2.modProg g fun p => { p with tripBase := true })
        else s2
    else s

def execTripTimeRecord (g : ChanNo) (w : Win) (s : State) : Ret := .next (resample g (tripRecord g w s))

/-- SAMPLED_DECISION: at tick t + 16 of a period both windows decide (R205). (DEDUCED: log entry 135) -/
def sampledDecision (g : ChanNo) (levelV levelI : Int) (s : State) : State :=
  if bayUp s (bayOf g) && sampled s g && s.locked && s.time.toNat % sper s g == 16 then
    let s1 := rawChange g .v (rawAt s g .v (if stest s g = 1 then levelI else levelV)) s
    rawChange g .i (rawAt s1 g .i (if stest s g = 1 then levelV else levelI)) s1
  else s

def execSampledDecision (g : ChanNo) (levelV levelI : Int) (s : State) : Ret :=
  .next (sampledDecision g levelV levelI s)

/-- CH_CMP_CTL written with the given bits. -/
def cmpClear (g : ChanNo) (clrV clrI : Bool) (s : State) : State :=
  let s1 := if clrV then clearWin g .v s else s
  if clrI then clearWin g .i s1 else s1

def execCmpClear (g : ChanNo) (clrV clrI : Bool) (s : State) : Ret :=
  .next (request (.channel g) 0x294 .write (cmpClear g clrV clrI) s)

def execBlankingEnd (g : ChanNo) (w : Win) (s : State) : Ret := .next (blankingEnd g w s)

/-! ## The digital mirror (R209) -/

/-- The mirror at one fast sample with the window's lane code. (DEDUCED: log entry 58) -/
def mirrorStep (code : Nat) (g : ChanNo) (w : Win) (s : State) : State :=
  if sampled s g || stest s g != 0 then s
  else
    let x := s.win g w
    let hi := thrHi s g w
    let lo := thrLo s g w
    let h := thrHyst s g w
    let m := rawNext 64 x.mirror hi lo h (code : Int)
    let run := if m = x.raw then 0 else min 8 (x.mismRun + 1)
    let on := decide (8 ≤ run) && mirrorFar x.raw m hi lo h code && !blanked s g w
    let count := on && !x.mismOn
    let s1 := s.modWin g w fun x =>
      { x with mirror := m, mismRun := run, mismOn := on, mism := if count then x.mism + 1 else x.mism }
    if count then setEvt s1 (.channel g) evMismatch else s1

end Sys2Proof.Machine
end

