-- ==== Sys2Proof/Machine/Measure.lean ====
section
/-! DEFINITION. The measure path: samples and their correction, boxcars, the precision filter, the latest values
and the result items (chapter 6). -/

namespace Sys2Proof.Machine

/-! ## One lane of the precision filter (R177 to R181) -/

/-- P, the ticks of a precision period. -/
def precTicks (pdec : Nat) : Nat := 80 * 2 ^ pdec

/-- Fast samples of a precision period. -/
def precSamples (pdec : Nat) : Nat := 20 * 2 ^ pdec

/-- The flags of a period with a sample at place `j` joined. -/
def flagsTake (j : Nat) (ovr clip spanChg : Bool) (i : Inflight) (f : LaneFlags) : LaneFlags :=
  { ovr := f.ovr || ovr, clip := f.clip || clip, spanChg := f.spanChg || spanChg
    inputFirst := f.inputFirst || (i.inputChg && j == 0)
    inputInner := f.inputInner || (i.inputChg && j != 0)
    closed := f.closed || i.closed, cal := f.cal || i.cal, uncal := f.uncal || i.uncal }

/-- A sample with value `x` at place `j` of its period joins a lane: place 0 begins the period. -/
def laneTake (j x : Nat) (ovr clip spanChg : Bool) (i : Inflight) (l0 : LaneAcc) : LaneAcc :=
  let l := if j = 0 then LaneAcc.reset else l0
  { a := l.a + x, w := l.w + (j + 1) * x, flags := flagsTake j ovr clip spanChg i l.flags }

/-- The flags of a window of two periods (R181). -/
def windowFlags (isI : Bool) (p0 p1 : LaneFlags) : Nat :=
  let bit (n : Nat) (b : Bool) : Nat := if b then 2 ^ n else 0
  let input := p0.inputInner || p1.inputFirst || p1.inputInner
  bit 0 (p0.ovr || p1.ovr) + bit 1 (p0.clip || p1.clip) + bit 2 isI +
  bit 3 ((isI && (p0.spanChg || p1.spanChg)) || input) + bit 4 (p0.closed || p1.closed) +
  bit 5 (p0.cal || p1.cal) + bit 6 (p0.uncal || p1.uncal)

/-- The precision word of a lane (R178, R181). -/
def precWord (isI : Bool) (n : Nat) (p0 p1 : LaneAcc) : Word :=
  BitVec.ofNat 32 (precValue n p0.w p1.a p1.w + 2 ^ 24 * windowFlags isI p0.flags p1.flags)

/-! ## Which values are sent (R186, R187) -/

def resMode (s : State) (g : ChanNo) : Nat := live s (.channel g) 0x240 0 2
def resLanes (s : State) (g : ChanNo) : Nat := live s (.channel g) 0x240 2 2
def resRdec (s : State) (g : ChanNo) : Nat := live s (.channel g) 0x240 8 4

/-- The item that the boundary at system time `bound` and tick `tick` sends. (DEDUCED: log entry 55) -/
def itemAt (s : State) (g : ChanNo) (pdec bound tick : Nat) : Option (Bool × Nat) :=
  match resMode s g with
  | 1 => if bound % (80 * 2 ^ (pdec + resRdec s g)) = 0 then some (false, resLanes s g) else none
  | 2 =>
    match (s.chan g).res.capture with
    | some t => if t < tick then some (true, resLanes s g) else none
    | none => none
  | _ => none

/-- A corrected sample joins the precision filter (R178 to R180). -/
def precTake (g : ChanNo) (i : Inflight) (v iv : Nat × Bool) (s : State) : State :=
  let p := (s.chan g).meas.prec
  if !p.running then s
  else
    let ticks := precTicks p.pdec
    let j := i.time.toNat % ticks / 4
    let lv := laneTake j v.1 (rawOver i.rawV) v.2 false i p.nowV
    let li := laneTake j iv.1 (rawOver i.rawI) iv.2 i.spanChg i p.nowI
    if j + 1 < precSamples p.pdec then s.modMeas g fun m => { m with prec := { p with nowV := lv, nowI := li } }
    else
      let done := { p with nowV := lv, nowI := li, prev := some (lv, li) }
      match p.prev with
      | none => s.modMeas g fun m => { m with prec := done }
      | some (v0, i0) =>
        let item := itemAt s g p.pdec (i.time.toNat + 4) (i.tick + 4)
        let w : PrecWin :=
          { tick := i.tick + 4, last := i.time, n := precSamples p.pdec, plane := i.plane, item := item
            v0 := v0, v1 := lv, i0 := i0, i1 := li }
        let s1 := s.modMeas g fun m => { m with prec := { done with closed := some w } }
        match item with
        | some (true, _) => s1.modRes g fun r => { r with capture := none }
        | _ => s1

/-! ## A sample four ticks after its instant (R168, R169, R174, R176) -/

/-- The boxcar of the running frame with one more sample. -/
def boxWith (i : Inflight) (v iv : Nat) (m : Meas) : Box :=
  let b0 := if i.time.toNat % 80 = 0 then Box.reset else m.box
  { v := b0.v + v, i := b0.i + iv, ovrV := b0.ovrV || rawOver i.rawV, ovrI := b0.ovrI || rawOver i.rawI
    n := b0.n + 1, span := i.span, boost := i.boost }

/-- A boxcar enters the bay's loop-feed queue; a full queue loses its oldest, and the channel of that is not reached in
the next frame (R176, R291, R423). -/
def feedPut (g : ChanNo) (x : Box) (s : State) : State :=
  let b := bayOf g
  let q := queuePut queuePairs (s.bay b).sash.feed (inBay g, x)
  let s1 := s.modSash b fun e => { e with feed := q.1 }
  match q.2 with
  | some y => queueLost b 0 (s1.modSash b fun e => { e with feedLost := y.1 :: e.feedLost })
  | none => s1

/-- A sample joins its boxcar; the 20th closes it. (DEDUCED: log entry 78) -/
def boxTake (g : ChanNo) (i : Inflight) (v iv : Nat) (s : State) : State :=
  let b := boxWith i v iv (s.chan g).meas
  if i.time.toNat % 80 = 76 then
    feedPut g b (s.modMeas g fun m => { m with box := Box.reset, linBoxes := (b :: m.linBoxes).take 16 })
  else s.modMeas g fun m => { m with box := b }

/-- The sample is corrected, and everything that it feeds takes it. (DEDUCED: log entry 52) -/
def settleSample (g : ChanNo) (i : Inflight) (s : State) : State :=
  let cv := correctRaw zeroV24 i.rawV i.pairV
  let ci := correctRaw zeroI24 i.rawI i.pairI
  let fv := fastCode i.rawV cv.1
  let fi := fastCode i.rawI ci.1
  let word := if i.flane then fi else fv
  let before := (s.chan g).meas.lastWord.getD word
  let s1 := boxTake g i cv.1 ci.1 (s.modMeas g fun m =>
    { m with
      inflight := none, fastV := fv, fastI := fi, ovrV := rawOver i.rawV, ovrI := rawOver i.rawI
      clipV := cv.2, clipI := ci.2, corrI := ci.1, lastWord := some word })
  let s2 := if rawOver i.rawV || rawOver i.rawI then setEvt s1 (.channel g) evOverRange else s1
  let s3 := if cv.2 || ci.2 then setEvt s2 (.channel g) evClip else s2
  let s4 := precTake g i cv ci s3
  let s5 := mirrorStep fi.toNat g .i (mirrorStep fv.toNat g .v s4)
  archiveFast g (i.time.toNat / 4) before.toNat word.toNat s5

/-- A sample whose correction is due is settled. -/
def settleDue (g : ChanNo) (s : State) : State :=
  match (s.chan g).meas.inflight with
  | some i => if i.tick + 4 ≤ s.tick then settleSample g i s else s
  | none => s

/-- The filter restarts at its restart boundary (R180), and a change of PDEC ends the folios that store the precision
stream (R324, cause 5). (DEDUCED: log entry 82) -/
def precRestart (g : ChanNo) (s : State) : State :=
  let p := (s.chan g).meas.prec
  match p.restart with
  | some (r, d) =>
    if r.toNat ≤ s.time.toNat then
      let s1 := s.modMeas g fun m =>
        { m with prec := { m.prec with pdec := d, running := true, restart := none, prev := none } }
      if p.running then archivePdec g s1 else s1
    else s
  | none => s

/-- FAST_SAMPLE: the converter samples both lanes (R165). (DEDUCED: log entry 40) -/
def fastSample (g : ChanNo) (rawV rawI : BitVec 18) (s : State) : State :=
  if pageUp s (.channel g) && onMult s 4 then
    let s1 := coefApply g (precRestart g (settleDue g s))
    placeSample g (sampleNow s1 g rawV rawI) s1
  else s

def execFastSample (g : ChanNo) (rawV rawI : BitVec 18) (s : State) : Ret := .next (fastSample g rawV rawI s)

/-! ## Result items (R186 to R191) -/

/-- The header word of an item; the read side sets LOSS (R188, R299). -/
def itemHeader (g : ChanNo) (lanes : Nat) (seq : BitVec 8) (capt : Bool) : Word :=
  BitVec.ofNat 32
    ((inBay g).val + 32 * lanes + 256 * seq.toNat + (if capt then 65536 else 0) + 2 ^ 31)

/-- The words of an item of the boundary at tick `bound`, with a mark on the last. -/
def itemWords (bound : Nat) (g : ChanNo) (lanes : Nat) (seq : BitVec 8) (capt : Bool) (last : Time) (pv pi : Word) :
    List (Nat × Fin 32 × Word × Bool) :=
  let time : Word := BitVec.ofNat 32 (last.toNat / 4 % 2 ^ 31)
  let data := (if lanes % 2 = 1 then [pv] else []) ++ (if lanes / 2 % 2 = 1 then [pi] else [])
  let all := [itemHeader g lanes seq capt, time] ++ data
  all.zipIdx.map fun x => (bound, inBay g, x.1, x.2 + 1 == all.length)

/-- Words of a pass. -/
abbrev PassWords := List (Nat × Fin 32 × Word × Bool)

/-- A word stands before the items of channel `c` at boundary `bound` (R191). -/
def passBefore (bound : Nat) (c : Fin 32) (x : Nat × Fin 32 × Word × Bool) : Bool :=
  decide (x.1 < bound) || (x.1 == bound && decide (x.2.1 ≤ c))

/-- The words up to the end of the item that the producer stands in. -/
def openItem (l : PassWords) : PassWords × PassWords :=
  let n := (l.takeWhile fun x => !x.2.2.2).length + 1
  (l.take n, l.drop n)

/-- An item joins a pass in the order of boundaries and channels, behind an item in progress (R191). (DEDUCED: log
entry 133) -/
def passInsert (mid : Bool) (new : PassWords) (bound : Nat) (c : Fin 32) (l : PassWords) : PassWords :=
  let x := if mid then openItem l else ([], l)
  x.1 ++ x.2.takeWhile (passBefore bound c) ++ new ++ x.2.dropWhile (passBefore bound c)

/-- An item of the boundary at tick `bound` enters the pass of the bay. -/
def sendItem (bound : Nat) (g : ChanNo) (capt : Bool) (lanes : Nat) (last : Time) (pv pi : Word) (s : State) : State :=
  let r := (s.chan g).res
  let seq := if r.fresh then 0 else r.seq + 1
  let s1 := s.modRes g fun r => { r with seq := seq, fresh := false }
  s1.modShelf (bayOf g) fun q =>
    { q with
      passWords :=
        passInsert q.midItem (itemWords bound g lanes seq capt last pv pi) bound (inBay g) q.passWords }

/-- PRECISION_BOUNDARY: two ticks after a boundary both lanes' values form (R179). (DEDUCED: log entry 55) -/
def precisionBoundary (g : ChanNo) (s : State) : State :=
  match (s.chan g).meas.prec.closed with
  | none => s
  | some w =>
    if pageUp s (.channel g) && sinceIs s w.tick 2 then
      let pv := precWord false w.n w.v0 w.v1
      let pi := precWord true w.n w.i0 w.i1
      let index := BitVec.ofNat 32 (w.last.toNat / 4)
      let s1 := s.modMeas g fun m =>
        { m with
          prec := { m.prec with closed := none }, pv := index ++ pv, pi := index ++ pi, pvalid := true
          ovrCntV := if pv.getLsbD 24 then m.ovrCntV + 1 else m.ovrCntV
          ovrCntI := if pi.getLsbD 24 then m.ovrCntI + 1 else m.ovrCntI }
      let s2 := archivePrec g (w.last.toNat + 4) w.n (if w.plane then pi else pv) s1
      match w.item with
      | some (capt, lanes) => sendItem w.tick g capt lanes w.last pv pi s2
      | none => s2
    else s

/-- (DESIGN CHOICE: log entry 3) -/
def execPrecisionBoundary (g : ChanNo) (s : State) : Ret := .next (precisionBoundary g s)

/-- A capture reaches the channel (R187). (DEDUCED: log entry 55) -/
def resultCapture (g : ChanNo) (s : State) : State :=
  if resMode s g ≠ 2 then s
  else if (s.chan g).res.capture.isSome then
    setEvt (s.modRes g fun r => { r with merged := r.merged + 1 }) (.channel g) evCapMerged
  else s.modRes g fun r => { r with capture := some s.tick }

def execResultCapture (g : ChanNo) (via : Via) (s : State) : Ret :=
  .next (request (.channel g) 0x244 via (resultCapture g) s)

/-! ## Changes of what a word means (R167, R175, R185) -/

/-- An event of R185 at the present tick, with its cause and value for the scale log (R319). (DEDUCED: log entry 54)
-/
def scaleChanged (g : ChanNo) (cause val : Nat) (s : State) : State :=
  let s1 := setEvt (s.modMeas g fun m => { m with scaleTime := s.time }) (.channel g) evScaleChanged
  archiveScale g (s.time.toNat / 4) cause val s1

/-- LANE_CHANGE: a committed FSEL or PSEL takes effect at a frame boundary (R175). (DEDUCED: log entry 54; DESIGN
CHOICE: log entry 131) -/
def laneChange (g : ChanNo) (s : State) : State :=
  let m := (s.chan g).meas
  match (m.laneReq.filter fun x => after s x.1).getLast? with
  | none => s
  | some (_, fsel, psel) =>
    if pageUp s (.channel g) && onFrame s then
      let s1 := s.modMeas g fun m =>
        { m with laneReq := m.laneReq.filter fun x => !after s x.1, flane := fsel, plane := psel }
      let lane := if fsel ≠ m.flane then fsel else psel
      let s2 :=
        if fsel ≠ m.flane ∨ psel ≠ m.plane then scaleChanged g 2 (if lane then 1 else 0) s1 else s1
      resample g s2
    else s

def execLaneChange (g : ChanNo) (s : State) : Ret := .next (laneChange g s)

/-- The committed BOOST takes effect on the output and the inputs (R73, R167, R202); a channel that becomes Native
starts with no Lintel limit, and a Booster channel has none (R222). (DEDUCED: log entry 54; DESIGN CHOICE: log entry
131) -/
def inputSwitch (g : ChanNo) (b : Bool) (s : State) : State :=
  let s1 := s.modForce g fun f => { f with boostReq := f.boostReq.filter fun x => !after s x.1 }
  if (s.chan g).force.boostLive = b then s1
  else
    let s2 := (s1.modForce g fun f => { f with boostLive := b }).modMeas g fun m =>
      { m with inputAt := some s.tick }
    let s2 := blankBoth g 32 s2
    let s2 := s2.modChan g fun c => { c with lintel := if domUp s 3 then 0xFFFF else c.lintel, lintelNew := none }
    resample g (scaleChanged g 3 (spanCode (s.chan g).force.spanLive) s2)

/-- INPUT_CHANGE: a committed BOOST takes effect at a loop-period boundary (R73, R167). (DEDUCED: log entry 54; DESIGN
CHOICE: log entry 131) -/
def inputChange (g : ChanNo) (s : State) : State :=
  match ((s.chan g).force.boostReq.filter fun x => after s x.1).getLast? with
  | none => s
  | some (_, b) => if pageUp s (.channel g) && onLoopBoundary s g then inputSwitch g b s else s

def execInputChange (g : ChanNo) (s : State) : Ret := .next (inputChange g s)

end Sys2Proof.Machine
end

