-- ==== Sys2Proof/Machine/Loop.lean ====
section
/-! DEFINITION. The loop of a channel: its state, its feedback, changes of mode, freezing, release, feedback loss
and one computation of its sashes (chapter 5, R127 to R156). -/

namespace Sys2Proof.Machine

/-! ## Loop states (R141) -/

/-- CH_LOOP_STAT.STATE. (DEDUCED: log entry 47) -/
def loopState (s : State) (g : ChanNo) : LoopState :=
  let c := s.chan g
  if c.force.fixed then .idle
  else
    match c.loop.mode with
    | .idle => .idle
    | .measure => .measure
    | .fv | .fi =>
      if c.loop.held then .held
      else if (c.loop.grace.bind Grace.endAt).isSome then .grace
      else if !shut s g then .parked
      else if c.loop.freeze then .frozen
      else .run

/-- Code of a loop state. (DEDUCED: log entry 47) -/
def loopStateCode (x : LoopState) : Nat :=
  match x with
  | .idle => 0
  | .parked => 1
  | .run => 2
  | .grace => 3
  | .held => 4
  | .measure => 5
  | .frozen => 6

/-- A state that computes. -/
def computes (x : LoopState) : Bool :=
  match x with
  | .parked | .run => true
  | .idle | .grace | .held | .measure | .frozen => false

/-- The channel is due in the frame that begins at the present tick (R128). -/
def dueNow (s : State) (g : ChanNo) : Bool :=
  computes (loopState s g) && onMult s (loopPeriod (s.chan g).loop.mode (s.chan g).loop.rate)

/-! ## Feedback (R131, R132) -/

def boxSamples (l : List Box) : Nat := (l.map Box.n).sum

/-- The newest `n` boxcars of a channel: those in the loop-feed queue, and before them those that the engine has
taken. -/
def boxcars (s : State) (g : ChanNo) (n : Nat) : List Box :=
  let queued := ((s.bay (bayOf g)).sash.feed.filter fun x => x.1 == inBay g).map Prod.snd
  (queued.reverse ++ (s.chan g).meas.boxes).take n

/-- Mean of a lane over the newest `n` boxcars. -/
def feedbackV (s : State) (g : ChanNo) (n : Nat) : Nat :=
  let l := boxcars s g n
  meanUp (l.map Box.v).sum (boxSamples l)

def feedbackI (s : State) (g : ChanNo) (n : Nat) : Nat :=
  let l := boxcars s g n
  meanUp (l.map Box.i).sum (boxSamples l)

/-- A V-lane boxcar of the newest `n` carries OVR. -/
def feedbackOvr (s : State) (g : ChanNo) (n : Nat) : Bool := (boxcars s g n).any Box.ovrV

/-- −3.250 V to +8.250 V in range units (R152). -/
def senseInRange (v : Nat) : Bool := decide (34304 ≤ v) && decide (v ≤ 14754304)

/-! ## Loop quantities set to zero (R146, R151, R156) -/

def sashZero (x : SashSt) : SashSt := { x with ist := 0, dst := 0, eprev := 0 }

def loopZero (vsp : Bool) (l : Loop) : Loop :=
  { l with lower := sashZero l.lower, upper := sashZero l.upper, vsp := if vsp then 0x40000 else l.vsp }

/-! ## Effective limits (R136, R216) -/

/-- The span field whose clamp pair and gain set apply: field 0 on a Booster channel. -/
def useField (s : State) (g : ChanNo) : Bool := (s.chan g).force.selUse && !(s.chan g).force.boostLive

def clampWord (s : State) (g : ChanNo) : Word := liveWord s (.channel g) (if useField s g then 0x1C4 else 0x1C0)

/-- A Lintel limit as a fraction of the live span's full scale; 0xFFFF is no limit. (DEDUCED: log entry 51) -/
def lintelFrac (s : State) (g : ChanNo) (lim : BitVec 16) : Nat :=
  let f := (s.chan g).force
  if f.boostLive || lim = 0xFFFF then 0xFFFF else lim.toNat * 32000000 / spanFs f.spanLive

/-- CH_ICLAMP_EFF: HI_EFF and LO_EFF. -/
def hiEff (s : State) (g : ChanNo) : Nat := min (field (clampWord s g) 0 16) (lintelFrac s g (s.chan g).lintel)
def loEff (s : State) (g : ChanNo) : Nat := min (field (clampWord s g) 16 16) (lintelFrac s g (s.chan g).lintel)

/-- The effective limits of a computation: Lintel's limit is that of the frame's boundary. -/
def hiUse (s : State) (g : ChanNo) : Nat := min (field (clampWord s g) 0 16) (lintelFrac s g (s.chan g).loop.lin)
def loUse (s : State) (g : ChanNo) : Nat := min (field (clampWord s g) 16 16) (lintelFrac s g (s.chan g).loop.lin)

/-! ## Span rescaling of the limiter (R149) -/

/-- In FI the limiter output takes the ratio of a rescaling still to be carried out. The limiter without it is kept
until the computation of this frame confirms it. (DEDUCED: log entry 41) -/
def rescaleSlew (g : ChanNo) (s : State) : State :=
  match (s.chan g).loop.rescaleOut with
  | some (old, new) =>
    let s1 := s.modLoop g fun l => { l with rescaleOut := none }
    if (s.chan g).loop.mode = .fi then
      let s2 := setSlewOut (s1.modChan g fun c => { c with slewAlt := none }) g
        (slewScaleSpan (codeInt (s.chan g).slew.out) (spanFs old) (spanFs new))
      s2.modChan g fun c => { c with slewAlt := some ((s.chan g).slew, old, new) }
    else s1
  | none => s

/-- The computation at which the limiter output was rescaled has been dropped: the rescaling waits for the next one
(R149). (DEDUCED: log entry 41) -/
def rescaleBack (g : ChanNo) (s : State) : State :=
  match (s.chan g).slewAlt with
  | some (l, old, new) =>
    (s.modChan g fun c => { c with slew := l, slewAlt := none }).modLoop g fun x =>
      { x with rescaleOut := some (match x.rescaleOut with | some (_, n) => (old, n) | none => (old, new)) }
  | none => s

/-! ## What a frame boundary fixes for a channel (R95, R128, R143, R152, R153) -/

/-- The channel enters RUN: after a state of FV or FI the first computation takes its own error as eprev (R143), and
the detectors restart. (DEDUCED: log entry 129) -/
def enterRun (l : Loop) : Loop :=
  let kick := l.lastState == .idle || l.lastState == .measure
  { l with
    lower := { l.lower with fresh := l.lower.fresh || !kick }, upper := { l.upper with fresh := l.upper.fresh || !kick }
    openCnt := 0, frz := FrzBlock.reset, lastState := .run }

/-- The channel has not been in RUN without a break since the last frame boundary (R143). (DEDUCED: log entry 129) -/
def runsAnew (now : Nat) (l : Loop) : Bool :=
  l.lastState != .run || (match l.leftRun with | some t => decide (t ≤ now) | none => false)

/-- The loop state at the boundary, and the limiter output for the period that begins. (DEDUCED: log entry 51) -/
def latchLoop (g : ChanNo) (s : State) : State :=
  let s1 := if dueNow s g then rescaleSlew g s else s
  let x := loopState s1 g
  s1.modChan g fun c =>
    let l := { c.loop with ff := c.slew.out, lin := c.lintel }
    let left := match l.leftRun with | some t => if t ≤ s.tick then none else some t | none => none
    { c with loop := { (if x = .run && runsAnew s.tick l then enterRun l else { l with
      lastState := x }) with leftRun := left } }

/-- The channels of a list in the order of a frame, from the rotation point on (R128). -/
def rotated (r : Fin 32) (l : List (Fin 32)) : List (Fin 32) :=
  l.filter (fun c => decide (r ≤ c)) ++ l.filter (fun c => decide (c < r))

/-- The channels due in the frame that begins at the present tick. -/
def dueList (s : State) (b : BayNo) : List (Fin 32) :=
  rotated (s.bay b).sash.rotate ((allFin 32).filter fun c => dueNow s (chanOf b c))

/-- The channels of a frame that are due: one whose loop-feed word was lost is not reached (R423). -/
def setDue (l : List (Fin 32)) (e : SashEng) : SashEng :=
  { e with
    todo := l.filter fun c => !e.noFeed.contains c, skipped := l.filter fun c => e.noFeed.contains c
    due := l.length }

/-- What takes effect at a frame boundary after the frame was begun in the same tick joins the frame. (DEDUCED: log
entry 51) -/
def reLatch (g : ChanNo) (s : State) : State :=
  let b := bayOf g
  let e := (s.bay b).sash
  if e.frameStart = some s.tick ∧ e.reached = 0 then
    let s1 := latchLoop g s
    s1.modSash b (setDue (dueList s1 b))
  else s

/-! ## Changes of mode, rate and divisor (R145 to R148, R501) -/

/-- vsp, the upper sash and the limiter on a change from FV to FI (R147). (DESIGN CHOICE: log entry 128) -/
def fvToFi (g : ChanNo) (oldRate : Nat) (s : State) : State :=
  let vsp := (s.chan g).slew.out
  let os := live s (.channel g) 0x198 8 5
  let fb : Int := (((feedbackI s g (2 ^ oldRate) + 8) / 16 : Nat) : Int)
  let s1 := s.modLoop g fun l =>
    { l with
      vsp := vsp
      upper := { SashSt.reset with ist := sat ((codeInt vsp - zeroV) * 2 ^ os) lim39lo lim39hi, os := os } }
  setSlewOut s1 g (sat fb 0 0xFFFFF)

/-- The limiter takes vsp, and the upper state is discarded (R148). -/
def fiToFv (g : ChanNo) (s : State) : State :=
  let vsp := (s.chan g).loop.vsp
  setSlewOut (s.modLoop g fun l => { l with upper := SashSt.reset, vclamp := false }) g (codeInt vsp)

/-- The loop enters idle or measure-only (R146, R156). (DEDUCED: log entry 38; DESIGN CHOICE: log entry 50) -/
def loopOff (g : ChanNo) (s : State) : State :=
  s.modLoop g fun l =>
    { loopZero true l with grace := none, held := false, releaseReq := none, vclamp := false }

/-- The mode, rate and divisor of a commit take effect, and those of the commits before it no longer will. (DESIGN
CHOICE: log entry 50) -/
def modeApply (g : ChanNo) (req : Nat × Mode × Nat × Nat) (s0 : State) : State :=
  let s := settleDue g s0
  let new := req.2.1
  let old := (s.chan g).loop.mode
  let oldRate := (s.chan g).loop.rate
  let s1 := s.modLoop g fun l =>
    { l with
      modeReq := l.modeReq.filter fun x => decide (req.1 < x.1), mode := new, rate := req.2.2.1, div := req.2.2.2 }
  if new = old then s1
  else
    let s1 := (s1.modLoop g fun l => { l with rescale := none, rescaleOut := none }).modChan g fun c =>
      { c with slewAlt := none }
    let s2 :=
      match old, new with
      | .fv, .fi => fvToFi g oldRate s1
      | .fi, .fv => fiToFv g s1
      | _, .idle => loopOff g s1
      | _, .measure => loopOff g s1
      | _, _ => s1
    refreshTarget g s2

/-- The latest commit whose change takes effect at the present tick, a boundary of its new period (R145). (DESIGN
CHOICE: log entry 50) -/
def modeDueNow (s : State) (g : ChanNo) : Option (Nat × Mode × Nat × Nat) :=
  if (s.chan g).force.fixed then none
  else ((s.chan g).loop.modeReq.filter fun x => after s x.1 && onMult s (loopPeriod x.2.1 x.2.2.1)).getLast?

def modeDue (g : ChanNo) (s : State) : State :=
  match modeDueNow s g with
  | some x => modeApply g x s
  | none => s

/-- MODE_CHANGE: a committed MODE, RATE or DIV takes effect at the boundary of the new period. -/
def modeChange (g : ChanNo) (s : State) : State :=
  if pageUp s (.channel g) && (modeDueNow s g).isSome then reLatch g (modeDue g s) else s

def execModeChange (g : ChanNo) (s : State) : Ret := .next (modeChange g s)

/-- SLEW_STEP: the limiter moves its output by at most STEP towards the target, after what takes effect in its tick
(R93, R501). -/
def execSlewStep (g : ChanNo) (s : State) : Ret := .next (slewStepOp g (modeDue g s))

/-! ## Requests to the loop (R144, R151, R156) -/

/-- The loop-freeze task. -/
def loopFreeze (g : ChanNo) (s : State) : State :=
  s.modLoop g fun l => { l with freezeReq := l.freezeReq ++ [(s.tick, true)] }

/-- The loop-resume task: a freeze of its tick wins over it. -/
def loopResume (g : ChanNo) (s : State) : State :=
  s.modLoop g fun l =>
    if l.freezeReq.contains (s.tick, true) then l else { l with freezeReq := l.freezeReq ++ [(s.tick, false)] }

/-- The freeze flag at a frame boundary: the latest activation of an earlier tick decides it (R144). -/
def freezeTake (now : Nat) (l : Loop) : Loop :=
  { l with
    freeze := (((l.freezeReq.filter fun x => decide (x.1 < now)).getLast?).map Prod.snd).getD l.freeze
    freezeReq := l.freezeReq.filter fun x => !decide (x.1 < now) }

def execLoopFreeze (g : ChanNo) (depth : Nat) (s : State) : Ret :=
  .next (request (.channel g) 0x1E4 (.task depth) (loopFreeze g) s)

def execLoopResume (g : ChanNo) (depth : Nat) (s : State) : Ret :=
  .next (request (.channel g) 0x1E4 (.task depth) (loopResume g) s)

/-- CH_LOOP_CTL.RESET written with 1. -/
def loopReset (g : ChanNo) (s : State) : State :=
  s.modLoop g fun l => if l.resetReq.isSome then l else { l with resetReq := some s.tick }

/-- CH_LOOP_CTL.RELEASE written with 1 while the loop is HELD. -/
def release (g : ChanNo) (s : State) : State :=
  s.modLoop g fun l => if l.held && l.releaseReq.isNone then { l with releaseReq := some s.tick } else l

def execLoopReset (g : ChanNo) (s : State) : Ret := .next (request (.channel g) 0x1E4 .write (loopReset g) s)

def execRelease (g : ChanNo) (s : State) : Ret := .next (request (.channel g) 0x1E4 .write (release g) s)

/-- A request made at least one tick ago. -/
def dueReq (s : State) (r : Option Nat) : Bool :=
  match r with
  | some t => after s t
  | none => false

/-- Freeze and resume, RESET, RELEASE and the start of a grace at a frame boundary (R144, R151, R154, R156). -/
def loopRequests (g : ChanNo) (s : State) : State :=
  let l := (s.chan g).loop
  let s1 := s.modLoop g (freezeTake s.tick)
  let s2 :=
    if dueReq s l.resetReq then
      s1.modLoop g fun l => { loopZero (l.mode == .fi) l with resetReq := none }
    else s1
  let off := (s.chan g).force.fixed && !modeForces (modeOf (liveMode s g))
  let s3 :=
    if l.held && (off || dueReq s l.releaseReq) then
      s2.modLoop g fun l => { loopZero (l.mode == .fi) l with held := false, releaseReq := none }
    else s2
  match l.grace with
  | some x =>
    if x.endAt.isNone then
      let us := live s (.channel g) 0x1D4 22 10
      s3.modLoop g fun l =>
        { l with grace := some { x with micros := us, endAt := some (s.tick + 160 * us) } }
    else s3
  | none => s3

/-! ## The end of a grace (R154, R155) -/

/-- The channel enters HELD. -/
def loopLost (g : ChanNo) (openSense : Bool) (s : State) : State :=
  let cause := if openSense then 1 else 2
  let s1 := s.modLoop g fun l =>
    { l with held := true, releaseReq := none, grace := none, cause := BitVec.ofNat 2 cause, lost := l.lost + 1 }
  let s2 := raise (setEvt s1 (.channel g) evFeedbackLost) (chanSid g 0xB)
  closeTick (detect s2 (.channel g) cause 0x22 0 clsLasting) g 4

/-- The boxcar that closed last is inside the range of R152 and carries no OVR flag. -/
def senseRecovered (s : State) (g : ChanNo) : Bool := senseInRange (feedbackV s g 1) && !feedbackOvr s g 1

/-- The grace of a channel ends at the present tick. -/
def graceOver (g : ChanNo) (x : Grace) (s0 : State) : State :=
  let s := settleDue g s0
  if x.openSense && decide (0 < x.micros) && senseRecovered s g then
    detect (s.modLoop g fun l => { l with grace := none, transient := l.transient + 1 }) (.channel g) 1 0x21 0
      clsTransient
  else loopLost g x.openSense s

/-- GRACE_END. -/
def graceEnd (g : ChanNo) (s : State) : State :=
  match (s.chan g).loop.grace with
  | some x =>
    if pageUp s (.channel g) && x.endAt == some s.tick then reLatch g (graceOver g x s) else s
  | none => s

def execGraceEnd (g : ChanNo) (s : State) : Ret := .next (graceEnd g s)

/-! ## Codes for the DAC (R63, R64, R76, R133) -/

/-- The pair that corrects the channel's DAC code. -/
def dacPair (s : State) (g : ChanNo) : Pair :=
  let c := s.chan g
  if c.force.boostLive then c.coefs.drive else c.coefs.dac[spanIdx c.force.spanLive]

/-- The feed-forward in DAC codes for a voltage code. -/
def ffCode (s : State) (g : ChanNo) (v : Int) : Int :=
  if (s.chan g).force.boostLive then boostFf v (live s (.channel g) 0x1A4 0 24) else v

/-- The code limits in force (R64). (DEDUCED: log entry 49) -/
def codeLimits (s : State) (g : ChanNo) : Int × Int :=
  if (s.chan g).force.boostLive then boostLimits (live s (.channel g) 0x1A8 0 10) else nativeLimits

/-- Correction and code limit of `pre`: the code, and whether its upper or lower limit replaced it. (DEDUCED: log
entry 49) -/
def finishCode (s : State) (g : ChanNo) (pre : Int) : Int × Bool × Bool :=
  let c := if (s.chan g).force.boostLive then zeroI else zeroV
  let x := dacCorrect c pre (dacPair s g)
  let lim := codeLimits s g
  (sat x lim.1 lim.2, decide (lim.2 < x), decide (x < lim.1))

/-- A lost DAC-code word: its channel counts as not reached in the running frame (R423). -/
def dacLost (b : BayNo) (c : Fin 32) (s : State) : State :=
  queueLost b 1 (s.modSash b fun e =>
    { e with skipped := c :: e.skipped, reached := e.reached - 1 })

/-- A code enters the bay's DAC-code queue. -/
def queueCode (g : ChanNo) (code : Int) (limited : Bool) (s : State) : State :=
  let s1 := s.modForce g fun f => { f with codeLim := limited }
  let s2 := if limited then setEvt s1 (.channel g) evLimited else s1
  let q := queuePut queueWords (s2.bay (bayOf g)).sash.dacq (inBay g, code20 code, s.tick)
  let s3 := s2.modSash (bayOf g) fun e => { e with dacq := q.1 }
  match q.2 with
  | some x => dacLost (bayOf g) x.1 s3
  | none => s3

/-! ## Coefficients (R133, R140) -/

def word16 (s : State) (g : ChanNo) (off lsb : Nat) : Int :=
  ((liveWord s (.channel g) off).extractLsb' lsb 16).toInt

/-- Coefficients from a PI word, a DF word and a SHIFT word. -/
def coefOf (s : State) (g : ChanNo) (pi df shift : Nat) : SashCoef :=
  { kp := word16 s g pi 0, ki := word16 s g pi 16, kd := word16 s g df 0
    fa := (live s (.channel g) df 16 16 : Nat), es := live s (.channel g) shift 0 4
    os := live s (.channel g) shift 8 5 }

def lowerCoef (s : State) (g : ChanNo) : SashCoef := coefOf s g 0x184 0x188 0x18C

def upperCoef (s : State) (g : ChanNo) : SashCoef :=
  if useField s g then coefOf s g 0x1B4 0x1B8 0x198 else coefOf s g 0x190 0x194 0x198

/-! ## Margin trace entries (R157, R159, R160) -/

/-- The nodes of one sash at one computation. -/
structure Nodes where
  e : Int
  p : Int
  ist : Int
  dst : Int
  corr : Int
  fb : Nat

def nodeValue (n : Nodes) (k : Nat) : BitVec 40 :=
  match k with
  | 0 => BitVec.ofInt 40 n.e
  | 1 => BitVec.ofInt 40 n.p
  | 2 => BitVec.ofInt 40 n.ist
  | 3 => BitVec.ofInt 40 n.dst
  | 4 => BitVec.ofInt 40 n.corr
  | _ => BitVec.ofNat 40 n.fb

/-- Entries that the buffer and one half hold. -/
def traceSize : Nat := 65536
def traceHalf : Nat := 32768

/-- TRACE_DONE with the trace-done source. -/
def traceDone (b : BayNo) (s : State) : State := raise (setEvt s (.sash b) 1) (baySid b 0)

/-- One entry enters the buffer (R159). -/
def traceAdd (b : BayNo) (e : BitVec 64) (s : State) : State :=
  let t := (s.bay b).sash.trace
  let put (f : Trace → Trace) (s : State) : State := s.modSash b fun x => { x with trace := f x.trace }
  if !t.running then s
  else
    match t.mode with
    | 0 =>
      if t.entries.length + 1 < traceSize then put (fun t => { t with entries := t.entries ++ [e] }) s
      else traceDone b (put (fun t => { t with entries := t.entries ++ [e], running := false, full := true }) s)
    | 1 =>
      if t.entries.length < traceSize then put (fun t => { t with entries := t.entries ++ [e] }) s
      else put (fun t => { t with entries := t.entries.drop 1 ++ [e], wrapped := true }) s
    | _ =>
      if traceHalf ≤ t.entries.length then
        setEvt (put (fun t => { t with lost := satInc t.lost }) s) (.sash b) 2
      else
        let l := t.entries ++ [e]
        if l.length = traceHalf ∧ t.spilling = [] then
          put (fun t => { t with entries := [], spilling := l }) s
        else put (fun t => { t with entries := l }) s

/-- An entry of slot `k` takes its place among the entries held for its frame. (DEDUCED: log entry 130) -/
def holdEntry (k : Fin 4) (e : BitVec 64) (l : List (Fin 4 × BitVec 64)) : List (Fin 4 × BitVec 64) :=
  l.takeWhile (fun x => decide (x.1 ≤ k)) ++ (k, e) :: l.dropWhile (fun x => decide (x.1 ≤ k))

/-- The slots that name this channel and sash record its nodes. (DESIGN CHOICE: log entry 46) -/
def traceNodes (g : ChanNo) (upper : Bool) (n : Nodes) (s : State) : State :=
  s.modSash (bayOf g) fun e =>
    let t := e.trace
    let hit := (allFin 4).filter fun k =>
      let w := t.slots[k]
      t.running && w.getLsbD 15 && field w 0 5 == (inBay g).val && w.getLsbD 11 == upper && t.frame % 2 ^ t.decim == 0
    let entry (k : Fin 4) : BitVec 64 :=
      BitVec.ofNat 22 t.frame ++ (BitVec.ofNat 2 k.val ++ nodeValue n (field t.slots[k] 8 3))
    { e with trace := { t with held := hit.foldl (fun l k => holdEntry k (entry k) l) t.held } }

/-- A slot of the trace still awaits the computation of its channel in the running frame. (DEDUCED: log entry 130) -/
def slotAwaited (e : SashEng) (k : Fin 4) : Bool :=
  let w := e.trace.slots[k]
  w.getLsbD 15 && e.todo.any fun c => c.val == field w 0 5

/-- The entries held for the running frame enter the buffer in slot order (R157): all of them, or those that no lower
slot may still precede. (DEDUCED: log entry 130) -/
def traceRelease (b : BayNo) (all : Bool) (s : State) : State :=
  let e := (s.bay b).sash
  let free (x : Fin 4 × BitVec 64) : Bool :=
    all || (allFin 4).all fun j => decide (x.1 ≤ j) || !slotAwaited e j
  let s1 := s.modSash b fun e => { e with trace := { e.trace with held := e.trace.held.dropWhile free } }
  s1.each (e.trace.held.takeWhile free) fun x s => traceAdd b x.2 s

/-! ## Detectors (R152, R153) -/

/-- The statistics of a block with one more computation. -/
def frzTake (v pre : Nat) (x : FrzBlock) : FrzBlock :=
  if x.n = 0 then { n := 1, fbMin := v, fbMax := v, preMin := pre, preMax := pre }
  else
    { n := x.n + 1, fbMin := min x.fbMin v, fbMax := max x.fbMax v, preMin := min x.preMin pre
      preMax := max x.preMax pre }

/-- Both detectors at one computation in RUN. -/
def detectors (g : ChanNo) (v : Nat) (ovr : Bool) (pre : Nat) (s : State) : State :=
  let l := (s.chan g).loop
  if l.grace.isSome then s
  else
    let n := live s (.channel g) 0x1D4 0 10
    let m := live s (.channel g) 0x1D4 12 10
    let cnt := if ovr || !senseInRange v then l.openCnt + 1 else 0
    let opened := decide (n ≠ 0) && decide (n ≤ cnt)
    let blk := if m = 0 then FrzBlock.reset else frzTake v pre l.frz
    let full := decide (m ≠ 0) && decide (m ≤ blk.n)
    let frozen := full && decide (blk.fbMax - blk.fbMin < 16 * live s (.channel g) 0x1D8 0 16) &&
      decide (live s (.channel g) 0x1D8 16 16 < blk.preMax - blk.preMin)
    s.modLoop g fun l =>
      { l with
        openCnt := cnt, frz := if full then FrzBlock.reset else blk
        grace := if opened || frozen then some { openSense := opened, micros := 0, endAt := none } else none }

/-! ## One computation (R133 to R143, R149) -/

/-- eprev and dst rescaled after a span change. -/
def rescaleSash (g : ChanNo) (s : State) : State :=
  match (s.chan g).loop.rescale with
  | some (old, new) =>
    s.modLoop g fun l =>
      let l := { l with rescale := none }
      match l.mode with
      | .fi => { l with upper := sashScaleSpan l.upper (spanFs old) (spanFs new) }
      | .fv => if l.active = 0 then l else { l with lower := sashScaleSpan l.lower (spanFs old) (spanFs new) }
      | .idle | .measure => l
  | none => s

/-- The SAT event and flags of a slot. (DEDUCED: log entry 48) -/
def satFlags (g : ChanNo) (esat osat : Bool) (s : State) : State :=
  let s1 := s.modLoop g fun l => { l with esat := esat, osat := osat }
  if esat || osat then setEvt s1 (.channel g) evSat else s1

/-- The frame in progress began on an upper boundary of the channel (R138). -/
def upperDue (s : State) (g : ChanNo) : Bool :=
  let l := (s.chan g).loop
  (s.bay (bayOf g)).sash.frameTime.toNat % (l.div * loopPeriod l.mode l.rate) == 0

/-- The voltage clamp limits: VHI for both when VLO lies above it (R139). -/
def vclamps (s : State) (g : ChanNo) : Int × Int :=
  let hi := live s (.channel g) 0x1C8 0 20
  let lo := live s (.channel g) 0x1CC 0 20
  (((if hi < lo then hi else lo : Nat) : Int), (hi : Int))

/-- The upper sash of a slot (R138, R139): the state, and whether e or corr saturated. -/
def upperCompute (g : ChanNo) (ff : Int) (s : State) : State × Bool × Bool :=
  let l := (s.chan g).loop
  let sp := sat ff (zeroI - 4 * (loUse s g : Nat)) (zeroI + 4 * (hiUse s g : Nat))
  let fb := feedbackI s g (l.div * 2 ^ l.rate)
  let o := sashLaw (upperCoef s g) l.upper (16 * sp - (fb : Nat))
  let lim := vclamps s g
  let raw := zeroV + o.corr
  let vsp := sat raw lim.1 lim.2
  let clamp := decide (vsp ≠ raw)
  let s1 := s.modLoop g fun l =>
    { l with
      upper := { o.st with limhi := decide (lim.2 < raw), limlo := decide (raw < lim.1) }
      vsp := code20 vsp, vclamp := clamp }
  let s2 := if clamp && !l.vclamp then setEvt s1 (.channel g) evClampOn else s1
  (traceNodes g true { e := o.e, p := o.p, ist := o.st.ist, dst := o.st.dst, corr := o.corr, fb := fb } s2,
    o.esat, o.osat)

/-- The lower sash of a slot in RUN, for an error and a feed-forward in voltage codes (R133, R134). -/
def lowerCompute (g : ChanNo) (e24 ff : Int) (v : Nat) (ovr ue uo : Bool) (s : State) : State :=
  let o := sashLaw (lowerCoef s g) (s.chan g).loop.lower e24
  let raw := ffCode s g ff + o.corr
  let pre := sat raw 0 0xFFFFF
  let (code, hi, lo) := finishCode s g pre
  let s1 := s.modLoop g fun l =>
    { l with
      lower := { o.st with
        limhi := o.corrHi || decide (0xFFFFF < raw) || hi, limlo := o.corrLo || decide (raw < 0) || lo }
      corr := code20 o.corr }
  let s2 := traceNodes g false { e := o.e, p := o.p, ist := o.st.ist, dst := o.st.dst, corr := o.corr, fb := v } s1
  detectors g v ovr pre.toNat (queueCode g code (hi || lo) (satFlags g (o.esat || ue) (o.osat || uo) s2))

/-- The upper sash at a computation in PARKED: it is only rescaled, at an upper boundary (R142, R150). (DESIGN CHOICE:
log entry 46) -/
def parkedUpper (g : ChanNo) (s : State) : State :=
  if (s.chan g).loop.mode = .fi && upperDue s g then
    s.modLoop g fun l => { l with upper := sashScaleOs l.upper (upperCoef s g).os }
  else s

/-- A computation in PARKED (R142), which leaves limit flags like any other (R134). The nodes e and p of such a
computation are free values. (DESIGN CHOICE: log entry 46) -/
def parkedCompute (g : ChanNo) (v : Nat) (s : State) : State :=
  let l := (s.chan g).loop
  let st := sashScaleOs l.lower (lowerCoef s g).os
  let acc := rnd (sat (st.ist + st.dst) lim39lo lim39hi) st.os
  let corr := parkedCorr st
  let ff := if l.mode = .fi then codeInt l.vsp else codeInt l.ff
  let (code, hi, lo) := finishCode s g (sat (ffCode s g ff + corr) 0 0xFFFFF)
  let pre := ffCode s g ff + corr
  let s1 := s.modLoop g fun l =>
    { l with
      lower := { st with
        limhi := decide (corr < acc) || decide (0xFFFFF < pre) || hi,
        limlo := decide (acc < corr) || decide (pre < 0) || lo }
      corr := code20 corr }
  let n : Nodes :=
    { e := (Config.freeValue s.free).toInt, p := (Config.freeValue (s.free + 1)).toInt, ist := st.ist
      dst := st.dst, corr := corr, fb := v }
  let s2 := traceNodes g false n (takeFree (takeFree s1))
  queueCode g code (hi || lo) (satFlags g false (decide (corr ≠ acc)) s2)

/-- FV in RUN: the error of R137 and its clamp event. -/
def fvCompute (g : ChanNo) (v : Nat) (ovr : Bool) (s : State) : State :=
  let l := (s.chan g).loop
  let fbi := feedbackI s g (2 ^ l.rate)
  let (e24, active) := fvError (16 * codeInt l.ff - (v : Nat)) (0x800000 + 64 * (hiUse s g : Nat))
    (0x800000 - 64 * (loUse s g : Nat)) (fbi : Nat) (live s (.channel g) 0x19C 0 16)
  let s1 := s.modLoop g fun l => { l with active := BitVec.ofNat 2 active }
  let s2 :=
    if active ≠ 0 ∧ l.active = 0 then raise (setEvt s1 (.channel g) evClampOn) (chanSid g 0xA) else s1
  lowerCompute g e24 (codeInt l.ff) v ovr false false s2

/-- FI in RUN: the upper sash where its boundary falls, then the lower sash on vsp. (DEDUCED: log entry 48) -/
def fiCompute (g : ChanNo) (v : Nat) (ovr : Bool) (s : State) : State :=
  let s0 := s.modLoop g fun l => { l with active := 0 }
  let (s1, ue, uo) := if upperDue s g then upperCompute g (codeInt (s.chan g).loop.ff) s0 else (s0, false, false)
  let vsp := codeInt (s1.chan g).loop.vsp
  lowerCompute g (16 * vsp - (v : Nat)) vsp v ovr ue uo s1

/-- One slot: the computation of a due channel. -/
def computeChan (g : ChanNo) (s0 : State) : State :=
  let s := rescaleSash g (s0.modChan g fun c => { c with slewAlt := none })
  let l := (s.chan g).loop
  let n := 2 ^ l.rate
  let v := feedbackV s g n
  let ovr := feedbackOvr s g n
  match l.lastState, l.mode with
  | .parked, _ => parkedCompute g v (parkedUpper g s)
  | .run, .fv => fvCompute g v ovr s
  | .run, .fi => fiCompute g v ovr s
  | _, _ => s

end Sys2Proof.Machine
end

