-- ==== Sys2Proof/Machine/Force.lean ====
section
/-! DEFINITION. The commands of the force path: opening and closing, span changes, the DAC, and the supplies that
act on it (chapter 3, R59 to R91, R442, R443, R498). -/

namespace Sys2Proof.Machine

/-! ## Span requests (R67 to R70, R78) -/

/-- The channel is a Booster channel: its live output, or its committed one while the power-up state holds. -/
def isBooster (s : State) (g : ChanNo) : Bool :=
  let f := (s.chan g).force
  f.boostLive || (f.fixed && liveBoost s g)

/-- The span that the selected field holds. -/
def spanTarget (s : State) (g : ChanNo) : Span := spanField s g (s.chan g).force.sel

/-- A span request reaches a Native channel. While the power-up state holds, the stage stays in span E (R88).
(DEDUCED: log entry 36) -/
def spanRequest (g : ChanNo) (s : State) : State :=
  let f := (s.chan g).force
  if f.fixed then s
  else
    let busy := f.spanChange.isSome
    s.modForce g fun f =>
      match f.spanReq with
      | none => { f with spanReq := some { first := s.tick, last := s.tick, held := busy } }
      | some r =>
        { f with
          spanReq := some { r with last := s.tick, held := r.held || busy }
          superseded := if r.held && r.last != s.tick then f.superseded + 1 else f.superseded }

/-- The newly selected field's clamp pair and gain set apply at once where no span change is to come (R149). -/
def selMoved (g : ChanNo) (s : State) : State :=
  let f := (s.chan g).force
  let waiting := match f.spanChange with | some x => !x.scaled | none => false
  if f.fixed || (!waiting && spanTarget s g == f.spanLive) then
    s.modForce g fun f => { f with selUse := f.sel }
  else s

/-- The change-span task toggles the selector and is a span request (R67); on a Booster channel it changes nothing
(R78). -/
def changeSpan (g : ChanNo) (s : State) : State :=
  if isBooster s g then setEvt s (.channel g) evSpanIgnored
  else
    spanRequest g (selMoved g (s.modForce g fun f => { f with sel := !f.sel, toggleTick := some s.tick }))

def execChangeSpan (g : ChanNo) (depth : Nat) (s : State) : Ret :=
  .next (request (.channel g) 0x0DC (.task depth) (changeSpan g) s)

/-! ## Make, scale and break (R69 to R71) -/

/-- The make of a span change at the present tick, with its loop period. (DEDUCED: log entry 36) -/
def spanBegin (g : ChanNo) (new : Span) (period : Nat) (s : State) : State :=
  let s1 := s.modForce g fun f =>
    { f with
      spanReq := none
      spanChange := some
        { old := f.spanLive, new := new, sel := f.sel, make := s.tick, period := period, scaled := false } }
  resample g (blankFor g .i (period + 16) s1)

/-- SPAN_MAKE: a span request is taken at a loop-period boundary; while Accession holds the channel it waits for
R (R249). A target equal to the live span causes no change. -/
def spanMake (g : ChanNo) (s0 : State) : State :=
  let s := modeDue g s0
  let f := (s.chan g).force
  match f.spanReq with
  | some r =>
    if pageUp s (.channel g) && !f.fixed && !calDriving s g && f.spanChange.isNone && after s r.first &&
      onLoopBoundary s g then
      if f.boostLive then s.modForce g fun f => { f with spanReq := none }
      else if spanTarget s g = f.spanLive then
        s.modForce g fun f => { f with spanReq := none, selUse := f.sel }
      else spanBegin g (spanTarget s g) (chanPeriod s g) s
    else s
  | none => s

def execSpanMake (g : ChanNo) (s : State) : Ret := .next (spanMake g s)

/-- The last corrected current before the present tick exceeds a smaller full scale (R71). -/
def currentOver (s : State) (g : ChanNo) (old new : Span) : Bool :=
  let i : Int := ((s.chan g).meas.corrI : Nat) - zeroI24
  decide (spanFs new < spanFs old) && decide (2 ^ 22 * spanFs new < i.natAbs * spanFs old)

/-- The new span's scale takes over. -/
def spanScale (g : ChanNo) (x : SpanChange) (s0 : State) : State :=
  let s := settleDue g s0
  let s1 := if currentOver s g x.old x.new then setEvt s (.channel g) evSpanOver else s
  let s2 := s1.modForce g fun f =>
    { f with spanLive := x.new, selUse := x.sel, spanChange := some { x with scaled := true } }
  let pend (p : Option (Span × Span)) : Option (Span × Span) :=
    match p with
    | some (old, _) => some (old, x.new)
    | none => some (x.old, x.new)
  let s3 :=
    if modeForces (s.chan g).loop.mode then
      s2.modLoop g fun l => { l with rescale := pend l.rescale, rescaleOut := pend l.rescaleOut }
    else s2
  reLatch g (resample g (scaleChanged g 1 (spanCode x.new) s3))

/-- SPAN_SCALE_SWITCH: tick L of a span change. (DEDUCED: log entry 41) -/
def spanScaleSwitch (g : ChanNo) (s0 : State) : State :=
  match (s0.chan g).force.spanChange with
  | some x =>
    if pageUp s0 (.channel g) && !x.scaled && sinceIs s0 x.make x.period then spanScale g x (modeDue g s0) else s0
  | none => s0

def execSpanScaleSwitch (g : ChanNo) (s : State) : Ret := .next (spanScaleSwitch g s)

/-- When a change completes and the field in force names another span, a new change is to begin (R70). (DEDUCED: log
entry 36) -/
def spanAgain (g : ChanNo) (s : State) : State :=
  let f := (s.chan g).force
  if f.spanReq.isNone && !isBooster s g && spanTarget s g != f.spanLive then
    s.modForce g fun f => { f with spanReq := some { first := s.tick, last := s.tick, held := true } }
  else s

/-- SPAN_BREAK: tick L + 16 of a span change. (DEDUCED: log entry 36) -/
def spanBreak (g : ChanNo) (s : State) : State :=
  match (s.chan g).force.spanChange with
  | some x =>
    if pageUp s (.channel g) && x.scaled && sinceIs s x.make (x.period + 16) then
      setEvt (spanAgain g (s.modForce g fun f => { f with spanChange := none, changes := f.changes + 1 }))
        (.channel g) evSpanDone
    else s
  | none => s

def execSpanBreak (g : ChanNo) (s : State) : Ret := .next (spanBreak g s)

/-! ## Opening (R85 to R91) -/

def execShutOpen (g : ChanNo) (via : Via) (s : State) : Ret :=
  .next (request (.channel g) 0x0DC via (fun s => requestOpen s g) s)

/-- The held state of R88 is released (R89). -/
def releaseHeld (g : ChanNo) (s : State) : State :=
  let mode := modeOf (liveMode s g)
  let period := loopPeriod mode (liveRate s g)
  let s1 := s.modForce g fun f => { f with fixed := false, spanReq := none }
  let s2 := s1.modLoop g fun l =>
    { l with modeReq := [], mode := mode, rate := liveRate s g, div := liveDiv s g, lastState := .idle }
  let s3 := inputSwitch g (liveBoost s2 g) s2
  let s4 := refreshTarget g (setSlewOut s3 g (if mode = .fi then zeroI else zeroV))
  let change := !(s4.chan g).force.boostLive && spanTarget s4 g != (s4.chan g).force.spanLive
  let s5 :=
    if change then spanBegin g (spanTarget s4 g) period s4
    else s4.modForce g fun f => { f with selUse := f.sel }
  let s6 := s5.modForce g fun f =>
    { f with firstOpen := some { t0 := s.tick, period := period, spanChange := change } }
  match (s6.chan g).force.closeTick with
  | some (t, cause) => if t = s.tick then cancelOpening s6 g cause else s6
  | none => s6

/-- The open request is taken at the present boundary, or refused (R85, R86, R89, R91). -/
def takeOpen (g : ChanNo) (s : State) : State :=
  let f := (s.chan g).force
  let s1 := s.modForce g fun f => { f with openReq := none }
  if shut s g || f.firstOpen.isSome then s1
  else
    match refusal s g with
    | some cause => refuseOpen s1 g cause
    | none => if f.fixed then releaseHeld g s1 else turnOn s1 g

/-- OPEN_TAKEN: the loop-period boundary of an open request. (DEDUCED: log entry 31) -/
def openTaken (g : ChanNo) (s0 : State) : State :=
  let s := modeDue g s0
  match (s.chan g).force.openReq with
  | some t =>
    if pageOpen s (.channel g) && after s t && onLoopBoundary s g then
      reLatch g (resample g (takeOpen g s))
    else s
  | none => s

/-- (DESIGN CHOICE: log entry 3) -/
def execOpenTaken (g : ChanNo) (s : State) : Ret := .next (openTaken g s)

/-- FIRST_OPEN_SWITCH_ON: the switch of a first opening begins to turn on (R89). (DEDUCED: log entry 31) -/
def firstOpenSwitchOn (g : ChanNo) (s : State) : State :=
  match (s.chan g).force.firstOpen with
  | some x =>
    if pageOpen s (.channel g) && s.tick == x.onAt then
      reLatch g (resample g (turnOn (s.modForce g fun f => { f with firstOpen := none }) g))
    else s
  | none => s

def execFirstOpenSwitchOn (g : ChanNo) (s : State) : Ret := .next (firstOpenSwitchOn g s)

/-- SWITCH_ON_COMPLETE: 16 ticks after it began to turn on the switch has its on-resistance. -/
def switchOnComplete (g : ChanNo) (s : State) : State :=
  match (s.chan g).force.switch with
  | .turningOn t => if sinceIs s t 16 then s.modForce g fun f => { f with switch := .on } else s
  | _ => s

def execSwitchOnComplete (g : ChanNo) (s : State) : Ret := .next (switchOnComplete g s)

/-! ## Closing (R80, R81) -/

def execShutClose (g : ChanNo) (s : State) : Ret :=
  .next (request (.channel g) 0x0DC .write (fun s => closeTick s g 0xA) s)

def execTaskShutterClose (g : ChanNo) (depth : Nat) (s : State) : Ret :=
  .next (request (.channel g) 0x0DC (.task depth) (fun s => closeTick s g 0x9) s)

/-- SWITCH_OFF_COMPLETE: nine ticks after a tick-path source asserted the switch is off. A switch that was turned off
asynchronously is off once its closing has registered. (DEDUCED: log entry 33) -/
def switchOffComplete (g : ChanNo) (s : State) : State :=
  match (s.chan g).force.switch with
  | .closing t => if sinceIs s t 9 then s.modForce g fun f => { f with switch := .off } else s
  | .tripClosing _ => s.modForce g fun f => { f with switch := .off }
  | _ => s

def execSwitchOffComplete (g : ChanNo) (s : State) : Ret := .next (switchOffComplete g s)

/-! ## Supplies of the analogue side (R442, R443, R498) -/

/-- DEV_SUPPLY shows that a supply has left its range, and the SUPPLY event is set. -/
def supplyEvt (s : State) : State := setEvt s .device 7

/-- The held state of R88. (DEDUCED: log entry 38) -/
def heldForce (f : Force) : Force :=
  { f with
    fixed := true, firstOpen := none, spanLive := .e, selUse := f.sel, spanReq := none, spanChange := none
    boostLive := false, boostReq := [], dacCode := 0x40000, dacTaken := none, codeLim := false }

/-- A channel returns to the held state, its loop idle with zero state (R498). A loop that is HELD stays so. (DESIGN
CHOICE: log entry 132) -/
def holdChan (g : ChanNo) (s : State) : State :=
  let s1 := s.modForce g heldForce
  let s2 := s1.modLoop g fun l =>
    { loopZero true l with
      mode := .idle, modeReq := [], grace := none, rescale := none, rescaleOut := none
      vclamp := false, lastState := .idle }
  let s2 := s2.modChan g fun c => { c with slewAlt := none }
  let s3 := s2.modSash (bayOf g) fun e => { e with dacq := e.dacq.filter fun x => x.1 ≠ inBay g }
  reLatch g (resample g (refreshTarget g s3))

/-- VANA leaves its range: every shutter closes with cause 0x0. (DEDUCED: log entries 32, 38) -/
def vanaOut (s : State) : State :=
  let s1 := s.modPower fun p => { p with vana := false }
  s1.each ((allFin 512).filter fun g => bayUp s (bayOf g)) fun g s => holdChan g (closeHardware s g)

def execVanaOutOfRange (s : State) : Ret :=
  .next (if s.power.powered && s.power.vana then supplyEvt (vanaOut s) else s)

/-- VANA is back in its range: a bay switch-on that waits for it may begin (R443). -/
def vanaIn (s : State) : State :=
  s.modPower fun p => { p with vana := true, queueTick := if p.held && !p.vana then s.tick else p.queueTick }

def execVanaInRange (s : State) : Ret := .next (vanaIn s)

/-- VFP lies in the monitor's range (R439). -/
def vfpOk (mv : BitVec 16) : Bool := decide (10000 ≤ mv.toNat) && decide (mv.toNat ≤ 11000)

/-- The reading of the rail that left its range, in mV: VFP, or VFN as the negative voltage that it is. (DEDUCED: log
entry 66) -/
def railReading (vfp vfn : BitVec 16) : Word :=
  if vfpOk vfp then BitVec.ofInt 32 (-(vfn.toNat : Int)) else vfp.setWidth 32

/-- Every channel of the bay's current batch is to fail with code 0xD and the rail's reading (R255). (DEDUCED: log
entry 66) -/
def accRail (b : BayNo) (reading : Word) (s : State) : State :=
  s.modAcc fun a => { a with bays := vmod a.bays b fun x => { x with railFault := x.railFault.or (some reading) } }

/-- A bay's force rails leave their range, with the monitor's readings of them: cause 0x5 asserts. -/
def railOut (b : BayNo) (vfp vfn : BitVec 16) (s : State) : State :=
  let s1 := s.modPower fun p => { p with rails := p.rails &&& ~~~((1 : BitVec 16) <<< b.val) }
  if bayUp s b then
    let s2 := if (bayChans b).any (calHeld s) then accRail b (railReading vfp vfn) s1 else s1
    s2.each (bayChans b) fun g s => closeTick s g 5
  else s1

def execRailOutOfRange (r : RailLoss) (s : State) : Ret :=
  .next (if s.power.rails.getLsbD r.bay.val then supplyEvt (railOut r.bay r.vfpMv r.vfnMv s) else s)

/-- A bay's force rails return to their range. -/
def railIn (b : BayNo) (s : State) : State :=
  s.modPower fun p => { p with rails := p.rails ||| ((1 : BitVec 16) <<< b.val) }

def execRailInRange (b : BayNo) (s : State) : Ret := .next (railIn b s)

/-! ## The DAC (R18, R60) -/

/-- Ticks of the channel's loop period that have passed. -/
def periodPhase (s : State) (g : ChanNo) : Nat := s.time.toNat % chanPeriod s g

/-- The newest code of the channel that the timebase sees: two or three ticks after its write, by arrival phase.
(DESIGN CHOICE: log entry 39) -/
def seenCode (s : State) (g : ChanNo) (late : Bool) : Option (BitVec 20) :=
  ((((s.bay (bayOf g)).sash.dacq.filter fun x =>
    x.1 == inBay g && decide (x.2.2 + (if late then 3 else 2) ≤ s.tick)).getLast?).map fun x => x.2.1)

/-- The DAC has taken a code in the present loop period. (DESIGN CHOICE: log entry 39) -/
def dacTook (s : State) (g : ChanNo) : Bool :=
  match (s.chan g).force.dacTaken with
  | some t => decide (s.tick ≤ t + periodPhase s g)
  | none => false

/-- DAC_UPDATE: an update tick, two ticks after a fast sample. With no new code the DAC holds its code, and so it does
while Accession drives the channel (R247). (DESIGN CHOICE: log entry 39) -/
def dacUpdate (g : ChanNo) (late : Bool) (s : State) : State :=
  if pageUp s (.channel g) && s.locked && s.time.toNat % 4 == 2 && !(s.chan g).force.fixed && !dacTook s g then
    match seenCode s g late with
    | some code =>
      let s1 := s.modForce g fun f =>
        if calDriving s g then f else { f with dacCode := code, dacTaken := some s.tick }
      s1.modSash (bayOf g) fun e =>
        { e with
          dacq := e.dacq.filter fun x => !(x.1 == inBay g && decide (x.2.2 + (if late then 3 else 2) ≤ s.tick)) }
    | none => s
  else s

def execDacUpdate (g : ChanNo) (late : Bool) (s : State) : Ret := .next (dacUpdate g late s)

end Sys2Proof.Machine
end

