-- ==== Sys2Proof/Machine/Accession.lean ====
section
/-! DEFINITION. Accession: calibration runs, holds, plausibility, and the journal in the boot flash (chapter 10,
R242 to R271, R492). -/

namespace Sys2Proof.Machine

/-! ## Parts of the state -/

def State.modAccBay (s : State) (b : BayNo) (f : AccBay → AccBay) : State :=
  s.modAcc fun a => { a with bays := vmod a.bays b f }

def State.modAccChan (s : State) (g : ChanNo) (f : AccChan → AccChan) : State :=
  s.modAcc fun a => { a with chans := vmod a.chans g f }

def State.modHold (s : State) (g : ChanNo) (f : CalHold → CalHold) : State :=
  s.modChan g fun c => { c with hold := c.hold.map f }

def accRetry (s : State) : Nat := live s .accession 0x040 8 2
def accBatch (s : State) : Nat := live s .accession 0x040 4 4
def accOpenSkip (s : State) : Bool := liveBit s .accession 0x040 1

/-- The nominal of the chosen reference in µV (R254). -/
def accNominal (s : State) : Int :=
  if liveBit s .accession 0x040 0 then (live s .accession 0x044 0 23 : Nat) else 5000000

/-! ## The journal (R261 to R267) -/

/-- An erase type that divides 128 KiB, and a JESD216 table (R261). (DEDUCED: log entry 68) -/
def jnlAvailable (f : Flash) : Bool :=
  match f.params with
  | some p => p.erase.toList.any fun n => decide (n ≠ 0) && 131072 % n == 0
  | none => false

def jnlSlot (base : Nat) (i : Fin 2) : Nat := base + 0x20000 * i.val

/-- A pair as eight bytes (R262). -/
def pairBytes (p : Pair) : List Byte := leBytes 4 p.gain.toNat ++ leBytes 2 p.ofs.toNat ++ [0, 0]

/-- A channel record of 192 bytes (R263). -/
def recordBytes (x : AccChan) : List Byte :=
  let c := x.coefs
  c.dac.toList.flatMap pairBytes ++ pairBytes c.drive ++ pairBytes c.mv ++ pairBytes c.bvs ++
  c.mi.toList.flatMap pairBytes ++ c.bis.toList.flatMap pairBytes ++
  leBytes 2 c.skew.toNat ++ [if c.loaded then 1 else 0, 0] ++ leBytes 4 x.count.toNat ++ leBytes 8 x.time.toNat ++
  List.replicate 56 0

/-- Slot offsets 0 to 0x1_803F (R262). -/
def slotBody (s : State) (seq : Nat) : List Byte :=
  leBytes 4 0x00C00001 ++ leBytes 4 seq ++ leBytes 8 Config.uid.toNat ++ leBytes 8 s.acc.storeTime.toNat ++
  List.replicate 40 0 ++ s.acc.chans.toList.flatMap recordBytes

/-- The body with its CRC. -/
def slotBytes (s : State) (seq : Nat) : List Byte :=
  let body := slotBody s seq
  body ++ leBytes 4 (crc32 body).toNat

def commitWord (seq : Nat) : List Byte := leBytes 4 (0xA55A * 65536 + seq % 65536)

/-- The state of a slot (R266, R267). (DEDUCED: log entry 68) -/
def slotState (f : Flash) (a : Nat) : Nat :=
  if !jnlAvailable f then 1
  else if flashBytes f (a + 0x1FF00) 4 ≠ commitWord (flashNat f (a + 4) 4) then 1
  else if flashNat f a 4 ≠ 0x00C00001 ∨ flashNat f (a + 0x18040) 4 ≠ (crc32 (flashBytes f a 0x18040)).toNat then 2
  else if flashNat f (a + 8) 8 ≠ Config.uid.toNat then 3
  else 0

/-- The slot that R266 selects. -/
def slotPick (f : Flash) (base : Nat) : Option (Fin 2) :=
  let seq (i : Fin 2) : Nat := flashNat f (jnlSlot base i + 4) 4
  match slotState f (jnlSlot base 0), slotState f (jnlSlot base 1) with
  | 0, 0 => if seq 0 < seq 1 then some 1 else some 0
  | 0, _ => some 0
  | _, 0 => some 1
  | _, _ => none

/-- A pair read from the flash. -/
def flashPair (f : Flash) (a : Nat) : Pair :=
  { gain := BitVec.ofNat 24 (flashNat f a 3), ofs := BitVec.ofNat 16 (flashNat f (a + 4) 2) }

/-- The coefficients of the record at `a`. -/
def recordCoefs (f : Flash) (a : Nat) : Coefs :=
  { dac := Vector.ofFn fun i : Fin 5 => flashPair f (a + 8 * i.val)
    drive := flashPair f (a + 0x28), mv := flashPair f (a + 0x30), bvs := flashPair f (a + 0x38)
    mi := Vector.ofFn fun i : Fin 5 => flashPair f (a + 0x40 + 8 * i.val)
    bis := #v[flashPair f (a + 0x68), flashPair f (a + 0x70)]
    skew := BitVec.ofNat 16 (flashNat f (a + 0x78) 2), loaded := flashNat f (a + 0x7A) 1 % 2 == 1 }

/-- A channel's part of the store filled from its record (R268, R270). -/
def recordLoad (f : Flash) (a : Nat) (x : AccChan) : AccChan :=
  { x with
    coefs := recordCoefs f a, count := BitVec.ofNat 32 (flashNat f (a + 0x7C) 4)
    time := BitVec.ofNat 64 (flashNat f (a + 0x80) 8), dirty := false }

/-- JNL_FAULT and the log entry for a slot found in state 2 or 3 (R267). -/
def slotFault (i : Fin 2) (st : Nat) (s : State) : State :=
  let s1 := if st = 2 ∨ st = 3 then setEvt s .accession 5 else s
  if st = 2 then detect s1 .accession i.val 0x43 0 clsLasting else s1

/-- The slots at the base are judged and reported. (DEDUCED: log entry 69) -/
def jnlReport (base : Nat) (s : State) : State :=
  let st (i : Fin 2) : Nat := slotState s.flash (jnlSlot base i)
  let s1 := s.modAcc fun a => { a with s0 := BitVec.ofNat 2 (st 0), s1 := BitVec.ofNat 2 (st 1) }
  slotFault 1 (st 1) (slotFault 0 (st 0) s1)

/-- The records of a slot fill the coefficient store. -/
def slotLoad (base : Nat) (i : Fin 2) (s : State) : State :=
  let a := jnlSlot base i
  s.modAcc fun x =>
    { x with
      inUse := some i, seq := BitVec.ofNat 32 (flashNat s.flash (a + 4) 4)
      chans := Vector.ofFn fun g : Fin 512 => recordLoad s.flash (a + 0x40 + 192 * g.val) x.chans[g] }

/-! ## One operation at a time (R256) -/

/-- Channels selected in a bay, rising. -/
def accSelected (s : State) (b : BayNo) : List (Fin 32) := (allFin 32).filter fun c => s.acc.sel[b].getLsbD c.val

def accAny (s : State) : Bool := (allFin 16).any fun b => !(accSelected s b).isEmpty

/-- A bay joins the run: its channels, and Catalogue B asked for. (DEDUCED: log entry 139) -/
def runBay (b : BayNo) (s : State) : State :=
  let l := accSelected s b
  let s1 := s.modAccBay b fun _ =>
    { active := !l.isEmpty, todo := l, batch := [], refChecked := false, railFault := none }
  let s2 := s1.each l fun c s => s.modAccChan (chanOf b c) fun x => { x with attempted := true }
  if !l.isEmpty && bayUp s b then catAsk b s2 else s2

/-- A run begins, or is refused (R244, R245). -/
def runBegin (s : State) : State :=
  if !domUp s 3 || !accAny s then setEvt s .accession 7
  else (s.modAcc fun a => { a with op := .run, done := 0, failedCnt := 0 }).each (allFin 16) runBay

def jnlBase (s : State) : Nat := live s .accession 0x050 17 15 * 0x20000

/-- A store ends without a new slot: LAST and STORE_FAILED. -/
def storeRefuse (last : Nat) (s : State) : State :=
  setEvt (s.modAcc fun a => { a with last := BitVec.ofNat 4 last }) .accession 3

/-- A store begins, or is refused (R261, R264, R265). -/
def storeBegin (s : State) : State :=
  if !jnlAvailable s.flash then storeRefuse 5 s
  else if s.acc.inUse.isSome && decide (0xFFFFFFFE ≤ s.acc.seq.toNat) then storeRefuse 4 s
  else flashRequest (s.modAcc fun a => { a with op := .store, storeTries := 0, base := jnlBase s }) .journal

/-- A load begins. -/
def loadBegin (s : State) : State :=
  flashRequest
    (s.modAcc fun a => { a with op := .load, base := jnlBase s, bootLoad := false, picked := false }) .journal

/-- The load of power-up (R268) begins: of the flash operations that wait it is the first (R455). (DEDUCED: log entry
138) -/
def bootLoadBegin (s : State) : State :=
  let s1 := s.modAcc fun a =>
    { a with op := .load, bootLoad := true, bootPend := false, picked := false, base := 0x100000 }
  if s1.flash.use = .free then flashBegin s1 .journal
  else s1.modFlash fun f => { f with queue := .journal :: f.queue }

/-- The operation ends, and pending operations start in the order run, store, load; the load of power-up goes before
the stores and loads that wait (R455). (DEDUCED: log entry 138) -/
def accEnd (s : State) : State :=
  let s0 := s.modAcc fun a => { a with op := .idle }
  let s1 := if s0.acc.runPend then runBegin (s0.modAcc fun a => { a with runPend := false }) else s0
  let s2 := if s1.acc.op = .idle ∧ s1.acc.bootPend then bootLoadBegin s1 else s1
  let s3 :=
    if s2.acc.op = .idle ∧ s2.acc.storePend then storeBegin (s2.modAcc fun a => { a with storePend := false }) else s2
  if s3.acc.op = .idle ∧ s3.acc.loadPend then loadBegin (s3.modAcc fun a => { a with loadPend := false }) else s3

/-- Accession's load of power-up is called for. It waits for a run or a flash operation in progress; a store or load
that waits for the flash gives way to it (R256, R455). (DEDUCED: log entry 138) -/
def bootJournal (s : State) : State :=
  match s.acc.op with
  | .idle => bootLoadBegin s
  | .run => s.modAcc fun a => { a with bootPend := true }
  | .store =>
    if s.flash.use = .journal then s.modAcc fun a => { a with bootPend := true }
    else
      bootLoadBegin ((s.modFlash fun f => { f with queue := f.queue.filter fun u => u != .journal }).modAcc fun a =>
        { a with storePend := true })
  | .load =>
    if s.flash.use = .journal then s.modAcc fun a => { a with bootPend := true }
    else
      bootLoadBegin ((s.modFlash fun f => { f with queue := f.queue.filter fun u => u != .journal }).modAcc fun a =>
        { a with loadPend := true })

/-- A run is requested. -/
def calibrate (s : State) : State :=
  if s.acc.op = .idle then runBegin s else s.modAcc fun a => { a with runPend := true }

/-- CALIBRATE. While a core reset is in progress an activation that reaches the measurement sequencer is discarded and
counted (R431); a write reaches the page, which is in PD0 (R492). (DEDUCED: log entry 70) -/
def calibrateVia (via : Via) (s : State) : State :=
  match via with
  | .write => calibrate s
  | .task _ => if s.mgmt.rst.getLsbD 16 then pdDrop s else calibrate s

def execCalibrate (via : Via) (s : State) : Ret := .next (request .accession 0x048 via (calibrateVia via) s)

/-- STORE: a store is requested. -/
def accStore (s : State) : State :=
  if s.acc.op = .idle then storeBegin s else s.modAcc fun a => { a with storePend := true }

def execStore (s : State) : Ret := .next (request .accession 0x048 .write accStore s)

/-- LOAD: a load is requested. -/
def accLoad (s : State) : State :=
  if s.acc.op = .idle then loadBegin s else s.modAcc fun a => { a with loadPend := true }

def execLoad (s : State) : Ret := .next (request .accession 0x048 .write accLoad s)

/-! ## Status of a channel (R246, R253, R254) -/

/-- A channel ends its part of the run with a code other than 0. (DEDUCED: log entry 66) -/
def chanFail (code span : Nat) (val : Option Word) (g : ChanNo) (s : State) : State :=
  let s1 := s.modAccChan g fun x =>
    { x with code := BitVec.ofNat 4 code, span := BitVec.ofNat 3 span, failVal := val.getD x.failVal }
  setEvt (s1.modAcc fun a => { a with failedCnt := a.failedCnt + 1 }) .accession 1

/-- The bay's part of the run ends, and with the last bay the run (R244). -/
def runEndIf (s : State) : State :=
  if s.acc.op = .run ∧ (allFin 16).all (fun b => !s.acc.bays[b].active) then
    accEnd (raiseAsync (setEvt s .accession 0) (devSid 0x00))
  else s

/-- A bay's batch ends when it holds no channel any more: Catalogue B is released, and the next batch asks for it again
(R238, R239), or the bay's part of the run ends. -/
def bayDone (b : BayNo) (s : State) : State :=
  let x := s.acc.bays[b]
  if x.active && x.batch.isEmpty then
    let s1 := catRelease b s
    if x.todo.isEmpty then runEndIf (s1.modAccBay b fun x => { x with active := false })
    else if bayUp s b then catAsk b s1
    else s1
  else s

/-! ## Batches (R244, R246, R254) -/

/-- The reading lies within ±0.5 % of the nominal. -/
def refOk (nominal reading : Int) : Bool :=
  decide (995 * nominal ≤ 1000 * reading) && decide (1000 * reading ≤ 1005 * nominal)

/-- The reference check of a bay fails: every selected channel fails with code 0xC. -/
def refFail (b : BayNo) (reading : Int) (s : State) : State :=
  let s1 := s.each s.acc.bays[b].todo fun c s => chanFail 0xC 0 (some (BitVec.ofInt 32 reading)) (chanOf b c) s
  let s2 := detect (setEvt s1 .accession 6) .accession b.val 0x41 0 clsLasting
  bayDone b (s2.modAccBay b fun x => { x with todo := [] })

/-- A channel joins its batch, or is skipped with code 0xE. -/
def batchJoin (b : BayNo) (c : Fin 32) (s : State) : State :=
  let g := chanOf b c
  if !bayUp s b || (accOpenSkip s && shut s g) then chanFail 0xE 0 none g s
  else
    let h : CalHold :=
      { heldAt := none, releasedAt := none, batchAt := s.tick, new := (s.acc.chans[g]).coefs, ended := []
        failed := none, repeats := [], retried := false, aborted := false }
    (s.modAccBay b fun x => { x with batch := x.batch ++ [c] }).modChan g fun x => { x with hold := some h }

/-- The next batch of a bay. -/
def batchNext (b : BayNo) (s : State) : State :=
  let n := accBatch s
  let l := s.acc.bays[b].todo.take n
  let s1 := s.modAccBay b fun x => { x with todo := x.todo.drop n, railFault := none }
  bayDone b (s1.each l (batchJoin b))

/-- A batch of a bay whose Catalogue B is held: before the first one the reference is checked with it (R254).
(DEDUCED: log entry 139) -/
def batchStart (b : BayNo) (reading : Int) (s : State) : State :=
  if (s.acc.bays[b]).refChecked then batchNext b s
  else if refOk (accNominal s) reading then batchNext b (s.modAccBay b fun x => { x with refChecked := true })
  else refFail b reading s

/-- BATCH_BEGIN: a bay's batch begins; that of a bay which has come up since the run began takes Catalogue B first.
(DEDUCED: log entry 139) -/
def batchBegin (b : BayNo) (reading : Int) (s : State) : State :=
  let x := s.acc.bays[b]
  if s.power.powered && s.acc.op == .run && x.active && x.batch.isEmpty then
    if !bayUp s b then batchNext b s
    else if (s.bay b).cat.held then batchStart b reading s
    else if (s.bay b).cat.holdReq.isSome then s
    else catAsk b s
  else s

def execBatchBegin (b : BayNo) (refMicrovolts : Int) (s : State) : Ret := .next (batchBegin b refMicrovolts s)

/-! ## Hold (R247) -/

/-- CAL_HOLD_START: tick F of a hold. (DEDUCED: log entry 66) -/
def calHoldStart (g : ChanNo) (s : State) : State :=
  match (s.chan g).hold with
  | some h =>
    if bayUp s (bayOf g) && h.heldAt.isNone && onFrame s && after s h.batchAt then
      resample g (closeTick (s.modHold g fun h => { h with heldAt := some s.tick }) g 6)
    else s
  | none => s

def execCalHoldStart (g : ChanNo) (s : State) : Ret := .next (calHoldStart g s)

/-! ## Plausibility (R251, R252) -/

/-- Kind and index of a step. -/
def stepKey (x : CalStep) : Nat × Nat :=
  match x with
  | .vLane _ _ => (0, 0)
  | .dac sp _ _ => (1, sp.val)
  | .iLane sp _ _ => (2, sp.val)
  | .ratio sp _ => (3, sp.val)
  | .drive _ _ => (4, 0)
  | .iSense r _ _ => (5, r.val)
  | .vSense _ _ => (6, 0)
  | .skew _ => (7, 0)

/-- The steps of a channel: the Booster quantities only on channels 0 to 3. -/
def stepKeys (c : Fin 32) : List (Nat × Nat) :=
  [(0, 0), (7, 0)] ++ (List.range 5).map (fun i => (1, i)) ++ (List.range 5).map (fun i => (2, i)) ++
  (List.range 4).map (fun i => (3, i)) ++ (if c.val < 4 then [(4, 0), (5, 0), (5, 1), (6, 0)] else [])

/-- An offset fails a limit. -/
def ofsBad (lim : Int) (ofs : BitVec 16) : Bool := decide (lim < (ofs.toInt.natAbs : Int))

/-- A gain lies outside lo to hi in hundredths. -/
def gainBad (lo hi : Nat) (gain : BitVec 24) : Bool :=
  decide (100 * gain.toNat < lo * 2 ^ 22) || decide (hi * 2 ^ 22 < 100 * gain.toNat)

def ofsWord (x : BitVec 16) : Word := x.signExtend 32
def gainWord (x : BitVec 24) : Word := x.setWidth 32

/-- The quantities of a step in the order in which they are checked: code, whether it fails its limit, and value.
(DEDUCED: log entry 65) -/
def stepQtys (x : CalStep) : List (Nat × Bool × Word) :=
  match x with
  | .vLane gn o => [(3, ofsBad 12800 o, ofsWord o), (4, gainBad 99 101 gn, gainWord gn)]
  | .dac _ gn o => [(1, ofsBad 2000 o, ofsWord o), (2, gainBad 98 102 gn, gainWord gn)]
  | .iLane _ gn o => [(5, ofsBad 20971 o, ofsWord o), (6, gainBad 98 102 gn, gainWord gn)]
  | .ratio _ q => [(7, gainBad 99 101 q, gainWord q)]
  | .drive gn o => [(8, ofsBad 2621 o, ofsWord o), (8, gainBad 98 102 gn, gainWord gn)]
  | .iSense _ gn o => [(9, ofsBad 16777 o, ofsWord o), (9, gainBad 99 101 gn, gainWord gn)]
  | .vSense gn o => [(0xA, ofsBad 12800 o, ofsWord o), (0xA, gainBad 99 101 gn, gainWord gn)]
  | .skew u => [(0xB, ofsBad 204 u, ofsWord u)]

/-- The span field of a step: 1 to 5 for a span-specific one. -/
def stepSpan (x : CalStep) : Nat :=
  match x with
  | .dac sp _ _ | .iLane sp _ _ => sp.val + 1
  | .ratio sp _ => sp.val + 1
  | .vLane _ _ | .drive _ _ | .iSense _ _ _ | .vSense _ _ | .skew _ => 0

/-- The new pairs with those that a step measured. -/
def stepTake (x : CalStep) (c : Coefs) : Coefs :=
  match x with
  | .vLane gn o => { c with mv := ⟨gn, o⟩ }
  | .dac sp gn o => { c with dac := vset c.dac sp ⟨gn, o⟩ }
  | .iLane sp gn o => { c with mi := vset c.mi sp ⟨gn, o⟩ }
  | .ratio _ _ => c
  | .drive gn o => { c with drive := ⟨gn, o⟩ }
  | .iSense r gn o => { c with bis := vset c.bis r ⟨gn, o⟩ }
  | .vSense gn o => { c with bvs := ⟨gn, o⟩ }
  | .skew u => { c with skew := u }

/-- Of two failures, the one earlier in the order of R251. -/
def earlier (a b : Option (Nat × Nat × Word)) : Option (Nat × Nat × Word) :=
  match a, b with
  | none, y => y
  | x, none => x
  | some x, some y => if y.1 < x.1 ∨ (y.1 = x.1 ∧ y.2.1 < x.2.1) then some y else some x

/-- UNIT of a plausibility failure (R422). -/
def plausUnit (g : ChanNo) (code : Nat) : Nat := g.val + 4096 * code

/-- The failure of a quantity is under way in a hold. -/
def qtyTry (h : CalHold) (step : Nat × Nat) (place : Nat) : Option QtyTry :=
  h.repeats.find? fun y => y.step == step && y.place == place

/-- The hold with a quantity's failure replaced. -/
def putTry (y : QtyTry) (h : CalHold) : CalHold :=
  { h with repeats := y :: h.repeats.filter fun z => !(z.step == y.step && z.place == y.place) }

/-- The hold without a quantity's failure. -/
def dropTry (y : QtyTry) (h : CalHold) : CalHold := { h with repeats := h.repeats.filter fun z => z != y }

/-- One quantity of a completed step is checked: its first failure, or the outcome of a repeat (R252). (DEDUCED: log
entry 65) -/
def qtyCheck (g : ChanNo) (x : CalStep) (place : Nat) (q : Nat × Bool × Word) (s : State) : State :=
  let key := stepKey x
  match (s.chan g).hold with
  | none => s
  | some h =>
    match qtyTry h key place with
    | none =>
      if q.2.1 then s.modHold g (putTry { step := key, place := place, code := q.1, count := 0, spent := false }) else s
    | some y =>
      let n := y.count + 1
      if y.spent then s
      else if !q.2.1 then
        detect (s.modHold g fun h => { dropTry y h with retried := true }) .accession (plausUnit g q.1) 0x40 n clsTransient
      else if n < accRetry s then s.modHold g (putTry { y with count := n })
      else
        detect
          (s.modHold g fun h =>
            { putTry { y with count := n, spent := true } h with
              failed := earlier h.failed (some (q.1, stepSpan x, q.2.2)) })
          .accession (plausUnit g q.1) 0x40 n clsLasting

/-- A quantity of the step is still to be repeated. -/
def stepPending (h : CalHold) (step : Nat × Nat) : Bool := h.repeats.any fun y => y.step == step && !y.spent

/-- The step ends, and its pairs are those of its last measurement. -/
def stepEnd (x : CalStep) (h : CalHold) : CalHold :=
  let key := stepKey x
  { h with
    ended := key :: h.ended, new := stepTake x h.new, repeats := h.repeats.filter fun y => y.step != key }

/-- One measurement is checked, quantity by quantity; the step is repeated while one of them has repeats left.
(DEDUCED: log entry 65) -/
def stepCheck (g : ChanNo) (x : CalStep) (s : State) : State :=
  let s1 := s.each ((stepQtys x).zipIdx) fun q s => qtyCheck g x q.2 q.1 s
  s1.modHold g fun h => if stepPending h (stepKey x) then h else stepEnd x h

/-- CAL_STEP_DONE: a measurement step of a held channel completes. -/
def calStepDone (g : ChanNo) (x : CalStep) (s : State) : State :=
  match (s.chan g).hold with
  | some h =>
    match h.heldAt with
    | some t =>
      if calDriving s g && !h.aborted && decide (t + 16 ≤ s.tick) && stepKey x ∈ stepKeys (inBay g) &&
          !(stepKey x ∈ h.ended) then
        stepCheck g x s
      else s
    | none => s
  | none => s

def execCalStepDone (g : ChanNo) (step : CalStep) (s : State) : Ret := .next (calStepDone g step s)

/-! ## Release (R247, R249, R250, R253, R255) -/

/-- The stage returns in the span that the span fields and the selector name. (DESIGN CHOICE: log entry 132) -/
def calSpan (g : ChanNo) (s : State) : State :=
  let f := (s.chan g).force
  if f.fixed || f.boostLive then s
  else
    let new := spanTarget s g
    let s1 := s.modForce g fun f => { f with spanReq := none, selUse := f.sel }
    if new = f.spanLive then s1
    else
      let pend (p : Option (Span × Span)) : Option (Span × Span) :=
        match p with
        | some (old, _) => some (old, new)
        | none => some (f.spanLive, new)
      let s2 := s1.modForce g fun f => { f with spanLive := new, changes := f.changes + 1 }
      let s3 :=
        if modeForces (s.chan g).loop.mode then
          s2.modLoop g fun l => { l with rescale := pend l.rescale, rescaleOut := pend l.rescaleOut }
        else s2
      setEvt (scaleChanged g 1 (spanCode new) s3) (.channel g) evSpanDone

/-- Every step of the channel has ended. -/
def stepsEnded (g : ChanNo) (h : CalHold) : Bool := (stepKeys (inBay g)).all fun k => k ∈ h.ended

/-- What the release records: a pass with its new pairs, or a code. (DEDUCED: log entry 65) -/
def calOutcome (g : ChanNo) (h : CalHold) (s : State) : State :=
  let s0 := s.modAcc fun a => { a with done := a.done + 1 }
  if h.aborted then chanFail 0xF 0 none g s0
  else
    match (s.acc.bays[bayOf g]).railFault, h.failed with
    | some reading, _ => chanFail 0xD 0 (some reading) g s0
    | none, some (code, span, val) => chanFail code span (some val) g s0
    | none, none =>
      let new := { h.new with loaded := true }
      let s1 := s0.modAccChan g fun x =>
        { x with
          coefs := new, count := satInc x.count, time := s.time, code := 0, span := 0, retried := h.retried,
          dirty := true }
      s1.modChan g fun c => { c with coefs := new, coefLoad := none }

/-- CAL_RELEASE: frame boundary R of a held channel. -/
def calRelease (g : ChanNo) (s0 : State) : State :=
  match (s0.chan g).hold with
  | some h =>
    if bayUp s0 (bayOf g) && calDriving s0 g && onFrame s0 && h.heldAt != some s0.tick &&
        (h.aborted || (s0.acc.bays[bayOf g]).railFault.isSome || stepsEnded g h) then
      let s := settleDue g s0
      let s1 := calOutcome g h (s.modHold g fun h => { h with releasedAt := some s.tick })
      let s2 := reLatch g (resample g (calSpan g s1))
      bayDone (bayOf g) (s2.modAccBay (bayOf g) fun x => { x with batch := x.batch.filter fun c => c ≠ inBay g })
    else s0
  | none => s0

def execCalRelease (g : ChanNo) (s : State) : Ret := .next (calRelease g s)

/-- CAL_HOLD_END: tick R + 32. -/
def calHoldEnd (g : ChanNo) (s : State) : State :=
  match (s.chan g).hold with
  | some h =>
    match h.releasedAt with
    | some t =>
      if sinceIs s t 32 then
        let s1 := s.modChan g fun c => { c with hold := none }
        resample g (latchIfOut g .i (latchIfOut g .v s1))
      else s
    | none => s
  | none => s

def execCalHoldEnd (g : ChanNo) (s : State) : Ret := .next (calHoldEnd g s)

/-! ## Abort, power and resets (R257, R258, R433) -/

/-- A run is aborted: held channels are released with code 0xF, others keep their status. (DEDUCED: log entry 65) -/
def runAbort (s : State) : State :=
  let s1 := s.modAcc fun a => { a with runPend := false, storePend := false, loadPend := false }
  let s2 := s1.each (allFin 512) fun g s =>
    s.modChan g fun c =>
      { c with
        hold :=
          match c.hold with
          | some h => if h.heldAt.isNone then none else if h.releasedAt.isNone then some { h with
            aborted := true } else some h
          | none => none }
  let s3 := s2.each (allFin 16) fun b s =>
    s.modAccBay b fun x => { x with todo := [], batch := x.batch.filter fun c => calDriving s (chanOf b c) }
  s3.each (allFin 16) bayDone

/-- The target of a store (R264). -/
def storeTarget (s : State) : Fin 2 :=
  match s.acc.inUse with
  | some 0 => 1
  | some _ => 0
  | none => 0

def storeSeq (s : State) : Nat :=
  match s.acc.inUse with
  | some _ => s.acc.seq.toNat + 1
  | none => 1

/-- (DESIGN CHOICE: log entry 67) -/
def setSlotState (i : Fin 2) (st : Nat) (s : State) : State :=
  s.modAcc fun a => if i = 0 then { a with s0 := BitVec.ofNat 2 st } else { a with s1 := BitVec.ofNat 2 st }

/-- The target lies inside the flash. (DEDUCED: log entry 68) -/
def storeFits (s : State) : Bool := decide (jnlSlot s.acc.base (storeTarget s) + 0x20000 ≤ flashSize s.flash)

/-- A store that has begun in the flash is cut short before its commit word: what the target holds below the end of
the CRC is open, and its commit word is erased (R265, R267). (DESIGN CHOICE: log entry 67) -/
def storeCut (s : State) : State :=
  let t := storeTarget s
  let a := jnlSlot s.acc.base t
  setSlotState t 1
    (if storeFits s then
      (takeFrees s 0x18044).modFlash fun f => flashPut (flashErased f a 0x20000) a (freeBytes s 0x18044)
    else s)

/-- Power fails during a store: before its commit word, or while that word is programmed, some bits of it (R267).
(DESIGN CHOICE: log entry 67) -/
def storePowerCut (s : State) : State :=
  if (freeNow s).getLsbD 0 || !storeFits s then storeCut (takeFree s)
  else
    let a := jnlSlot s.acc.base (storeTarget s)
    let seq := storeSeq s
    let word := ((commitWord seq).zip (freeBytes (takeFree s) 4)).map fun x => x.1 ||| x.2
    (takeFrees (takeFree s) 4).modFlash fun f =>
      flashProgram (flashProgram (flashErased f a 0x20000) a (slotBytes s seq)) (a + 0x1FF00) word

/-- A store is aborted: LAST is 3. -/
def storeAbort (s : State) : State :=
  let s1 :=
    if s.flash.use = .journal then flashFree (storeCut s)
    else s.modFlash fun f => { f with queue := f.queue.filter fun u => u != .journal }
  accEnd (s1.modAcc fun a => { a with last := 3 })

/-- ABORT. -/
def accAbort (s : State) : State :=
  match s.acc.op with
  | .run => runAbort s
  | .store => storeAbort s
  | .idle | .load => s

def execAbort (s : State) : Ret := .next (request .accession 0x048 .write accAbort s)

/-- The repeats in progress of a held channel are abandoned by a reset or a domain switching off (R432). -/
def holdAbandon (g : ChanNo) (s : State) : State :=
  match (s.chan g).hold with
  | some h =>
    if calDriving s g && !h.aborted then
      s.each (h.repeats.filter fun y => !y.spent) fun y s =>
        detectFull s .accession (plausUnit g y.code) 0x40 y.count clsLasting true
    else s
  | none => s

/-- PD3 switches off, or the core is reset, during a run. -/
def accRunOff (s : State) : State :=
  if s.acc.op = .run then runAbort (s.each (allFin 512) holdAbandon) else s

/-- A bay's domain switches off, or the bay is reset, during a run: its held channels fail with code 0xF and its other
channels are skipped. (DEDUCED: log entries 66, 70) -/
def accBayOff (b : BayNo) (s : State) : State :=
  let x := s.acc.bays[b]
  if s.acc.op = .run ∧ x.active then
    let s1 := s.each x.batch fun c s0 =>
      let g := chanOf b c
      let s := holdAbandon g s0
      let s1 :=
        if calDriving s g then chanFail 0xF 0 none g (s.modAcc fun a => { a with done := a.done + 1 })
        else chanFail 0xE 0 none g s
      s1.modChan g fun c => { c with hold := none }
    let s2 := s1.each x.todo fun c s => chanFail 0xE 0 none (chanOf b c) s
    bayDone b (s2.modAccBay b fun x => { x with todo := [], batch := [] })
  else s

/-! ## Store and load (R264 to R270) -/

/-- A store's commit word has read back: the target becomes the slot in use. -/
def storeDone (s : State) : State :=
  let t := storeTarget s
  let seq := storeSeq s
  let a := jnlSlot s.acc.base t
  let s1 := s.modFlash fun f =>
    flashProgram (flashProgram (flashErased f a 0x20000) a (slotBytes s seq)) (a + 0x1FF00) (commitWord seq)
  let s2 :=
    if 0 < s.acc.storeTries then detect s1 .accession t.val 0x42 s.acc.storeTries clsTransient else s1
  let s3 := setSlotState t 0 (s2.modAcc fun x =>
    { x with
      inUse := some t, seq := BitVec.ofNat 32 seq, last := 1, chans := x.chans.map fun c => { c with dirty := false } })
  accEnd (flashFree (setEvt s3 .accession 2))

/-- The last read-back has failed (R265). (DESIGN CHOICE: log entry 67) -/
def storeFailed (s : State) : State :=
  let s1 := detect (storeCut s) .accession (storeTarget s).val 0x42 s.acc.storeTries clsLasting
  accEnd (flashFree (storeRefuse 2 s1))

/-- STORE_COMPLETE: one pass of a store has read its slot and its commit word back. -/
def storeComplete (ok : Bool) (s : State) : State :=
  if s.acc.op = .store ∧ s.flash.use = .journal then
    if ok && storeFits s then storeDone s
    else if s.acc.storeTries < accRetry s then
      s.modAcc fun a => { a with storeTries := a.storeTries + 1 }
    else storeFailed s
  else s

/-- (DESIGN CHOICE: log entry 4) -/
def execStoreComplete (readBackOk : Bool) (s : State) : Ret := .next (storeComplete readBackOk s)

/-- JOURNAL_LOAD: at power-up a slot is selected at the reset value of ACC_JNL_BASE and fills the store (R268).
(DEDUCED: log entry 69) -/
def journalLoad (s : State) : State :=
  if s.acc.op = .load ∧ s.flash.use = .journal ∧ s.acc.bootLoad ∧ !s.acc.picked then
    let base := 0x100000
    let s1 := jnlReport base s
    let s2 :=
      match slotPick s.flash base with
      | some i => slotLoad base i s1
      | none => s1
    s2.modAcc fun a => { a with picked := true }
  else s

def execJournalLoad (s : State) : Ret := .next (journalLoad s)

/-- LOAD_DONE and the pairs for every channel of a powered bay at its next frame boundary. (DEDUCED: log entry 69) -/
def loadFinish (s : State) : State :=
  let s1 := s.each ((allFin 512).filter fun g => bayUp s (bayOf g)) fun g s =>
    s.modChan g fun c => { c with coefLoad := some s.tick }
  accEnd (flashFree (setEvt s1 .accession 4))

/-- LOAD_DONE: the load in progress completes; a commanded load with no valid slot is refused (R269, R270). (DEDUCED:
log entry 69) -/
def loadDone (s : State) : State :=
  if s.acc.op = .load ∧ s.flash.use = .journal then
    if s.acc.bootLoad then (if s.acc.picked then loadFinish s else s)
    else
      let s1 := jnlReport s.acc.base s
      match slotPick s.flash s.acc.base with
      | some i => loadFinish (slotLoad s.acc.base i s1)
      | none => accEnd (flashFree (setEvt s1 .accession 7))
  else s

def execLoadDone (s : State) : Ret := .next (loadDone s)

end Sys2Proof.Machine
end

