-- ==== Sys2Proof/Machine/Archive.lean ====
section
/-! DEFINITION. The Archive's commands: arming and stopping folios, triggers, the ends of recordings, staging
words and tag reads (chapter 13, R320 to R334, R497). -/

namespace Sys2Proof.Machine

/-! ## Arm, stop and trigger (R321, R322, R329) -/

def execArm (f : Fin 64) (via : Via) (s : State) : Ret :=
  .next (request (folioPage f) (folioSlot f + 0x00C) via (folioArm f) s)

def execFolioStop (f : Fin 64) (via : Via) (s : State) : Ret :=
  .next (request (folioPage f) (folioSlot f + 0x00C) via (folioStopOp f) s)

/-- T of a trigger at the present tick, in 1/64 fast sample. (DEDUCED: log entry 85) -/
def trigNow (s : State) : Int := ((16 * s.time.toNat : Nat) : Int)

/-- Source 14 for the trigger task, source 15 for ARC_F_CTL.TRIG. -/
def trigSource (via : Via) : Nat :=
  match via with
  | .task _ => 14
  | .write => 15

def folioTrig (src : Nat) (f : Fin 64) (s : State) : State := presentCond src (trigNow s) f s

def execTrig (f : Fin 64) (via : Via) (s : State) : Ret :=
  .next (request (folioPage f) (folioSlot f + 0x00C) via (folioTrig (trigSource via) f) s)

/-! ## Progress of a recording (R321, R327, R331) -/

/-- The Archive works: its domain is up. -/
def archiveOn (s : State) : Bool := pageUp s .archive

/-- FOLIO_READY: a filling folio reaches sample S0 + PRE_EFF. -/
def folioReady (f : Fin 64) (s : State) : State :=
  let x := s.folio f
  if archiveOn s && x.state == 2 && s.time.toNat == x.dueAt then
    s.modFolio f fun x => { x with state := 3 }
  else s

def execFolioReady (f : Fin 64) (s : State) : Ret := .next (folioReady f s)

/-- The lowest-numbered of conditions, and the earliest of one source. -/
def lowestCond (l : List (Nat × Nat)) : Option (Nat × Nat) :=
  l.foldl
    (fun best c =>
      match best with
      | none => some c
      | some b => if c.1 < b.1 ∨ (c.1 = b.1 ∧ c.2 < b.2) then some c else some b)
    none

/-- MASK of the conditions met. -/
def condMask (l : List (Nat × Nat)) : BitVec 16 := l.foldl (fun m c => m ||| ((1 : BitVec 16) <<< c.1)) 0

/-- System time at which the last precision value of a stream that holds samples up to `e` has formed. -/
def precFormed (e : Nat) (t : Stream) : Nat := if t.kind.val = 4 then 4 * t.window * (e / t.window + 1) + 2 else 0

/-- System time at which the last value of a recording up to sample `e` has formed (R327). (DESIGN CHOICE: log entry
80) -/
def completeAt (x : Folio) (e : Nat) : Nat := (x.streams.map (precFormed e)).foldl max (4 * (e + 1))

/-- The folio takes a trigger at sample `n`; its complete source is due when the recording ends, or at the judging
where that is later (R327). (DESIGN CHOICE: log entry 80) -/
def takeTrigger (f : Fin 64) (n : Nat) (c : Nat × Nat) (mask : BitVec 16) (s : State) : State :=
  let s1 := s.modFolio f fun x =>
    { x with
      state := 4, primary := BitVec.ofNat 4 c.1, mask := mask, trigPoint := some c.2, trigSample := some n
      last := some (n + x.postEff - 1), dueAt := max s.time.toNat (completeAt x (n + x.postEff - 1)) }
  writeHeader f (releaseSamples f (setEvt (raise s1 (folioSid f 0)) (folioPage f) (3 * (f.val % 8))))

/-- TRIGGER_JUDGE: trigger sample `n` is judged (R331, R332). A folio that does not record judges nothing, and one that
is TRIGGERED ignores later samples uncounted. -/
def triggerJudge (f : Fin 64) (n : Nat) (s : State) : State :=
  let x := s.folio f
  if archiveOn s && s.time.toNat == 4 * n + 12 + judgeLag s f then
    let met := x.conds.filter fun c => c.2 / 64 == n
    let s1 := s.modFolio f fun x => { x with conds := x.conds.filter (fun c => c.2 / 64 != n), judged := n + 1 }
    match lowestCond met with
    | none => s1
    | some c =>
      if x.state = 2 ∨ (x.state = 3 ∧ n < x.s0 + x.preEff) then
        s1.modFolio f fun x => { x with ignored := satInc x.ignored }
      else if x.state = 3 then takeTrigger f n c (condMask met) s1
      else s1
  else s

def execTriggerJudge (f : Fin 64) (sample : Nat) (s : State) : Ret := .next (triggerJudge f sample s)

/-- FOLIO_COMPLETE: the recording has reached sample E, and its last precision value has formed. -/
def folioComplete (f : Fin 64) (s : State) : State :=
  let x := s.folio f
  if archiveOn s && x.state == 4 && s.time.toNat == x.dueAt then
    idleNow (raise (s.modFolio f fun x => { x with state := 5, flushPend := true }) (folioSid f 1))
  else s

def execFolioComplete (f : Fin 64) (s : State) : Ret := .next (folioComplete f s)

/-- FOLIO_ENDED_EARLY: a cause found in the core ends the recording (R324). -/
def folioEndedEarly (f : Fin 64) (cause : Fin 6) (s : State) : State :=
  if archiveOn s && recording (s.folio f) && (s.folio f).endPend == some cause then
    folioEndEarly f cause.val s
  else s

def execFolioEndedEarly (f : Fin 64) (cause : Fin 6) (s : State) : Ret := .next (folioEndedEarly f cause s)

/-- Every value of a recording up to sample `e` has formed and has been packed: none is in a channel's correction or
precision filter, and none in a staging queue. (DESIGN CHOICE: log entry 80) -/
def allPacked (s : State) (f : Fin 64) (e : Nat) : Bool :=
  let x := s.folio f
  let inside := fun (t : Stream) =>
    let m := (s.chan t.chan).meas
    (match m.inflight with | some y => decide (y.time.toNat ≤ 4 * e) | none => false) ||
    (t.kind.val == 4 && m.prec.closed.isSome)
  decide (completeAt x e < s.time.toNat) && !(x.streams.any inside) && x.samples.isEmpty && x.precs.isEmpty &&
  !stagedFor s f

/-- The last lines and the header have gone to DRAM. -/
def folioFlush (f : Fin 64) (s : State) : State :=
  let x := s.folio f
  let whole := decide (x.endCause.toNat < 3)
  let s1 := if whole then flushStreams f s else s
  let s2 := s1.modFolio f fun x =>
    { x with
      flushPend := false, flushed := true
      horizon := if whole then (match x.last with | some e => e + 1 | none => x.horizon) else x.horizon }
  setEvt (writeHeader f s2) (folioPage f) (3 * (f.val % 8) + if x.endCause = 0 then 1 else 2)

/-- FOLIO_FLUSHED: the last partial lines and the header are in DRAM (R327). It is due once every value up to E is
packed, and the lines need wait for nothing else. Recordings that ended with causes 3 to 5 write no line after E
(R324). (DESIGN CHOICE: log entry 80) -/
def folioFlushed (f : Fin 64) (s : State) : State :=
  let x := s.folio f
  let ready := match x.last with
    | some e => decide (3 ≤ x.endCause.toNat) || allPacked s f e
    | none => false
  if archiveOn s && x.flushPend && ready then
    if memServes s then
      let s1 := folioFlush f s
      if writesUnderWay s1 (.archive f.val) then s else s1
    else memWake s
  else s

def execFolioFlushed (f : Fin 64) (s : State) : Ret := .next (folioFlushed f s)

/-- STAGING_WORD: the Archive takes the oldest word of a staging queue (R325), unless a line of it waits at its port. -/
def stagingWord (g : ChanNo) (prec : Bool) (s : State) : State :=
  if bayUp s (bayOf g) && (!domUp s 3 || archiveOn s) then
    let s1 := sendHeaders s
    if s1.stk.waiting.any fun x => x.1 == 0 then s1 else takeStaged g prec s1
  else s

/-- (DESIGN CHOICE: log entry 4) -/
def execStagingWord (g : ChanNo) (prec : Bool) (s : State) : Ret := .next (stagingWord g prec s)

/-! ## Tag reads (R497) -/

/-- ARC_TAG_CTL.GO. -/
def tagGo (s : State) : State :=
  if s.archive.tagBusy.isSome then s
  else
    memWake ((dropReturned .tagRead s).modArchive fun a =>
      { a with tagBusy := some (a.tagAddr.toNat / 64), tagValid := false })

def execTagRead (s : State) : Ret := .next (request .archive 0x070 .write tagGo s)

/-- The tag read is answered: what it gives of the tag, and POISON; the free value stands for the tag where the spec
leaves it open. (DESIGN CHOICE: log entry 84) -/
def tagAnswer (tag : Option (BitVec 56)) (poison : Bool) (s : State) : State :=
  let t := tag.getD ((freeNow s).setWidth 56)
  let s1 := (takeFree s).modArchive fun a =>
    { a with tagBusy := none, tagData := t, tagPoison := poison, tagValid := true }
  setEvt s1 .archive 5

/-- TAG_DONE: the tag read passes through P5 and is judged as READ_RETURN judges a read. (DESIGN CHOICE: log entry 84)
-/
def tagDone (errs : ReadErrs) (s : State) : State :=
  match s.archive.tagBusy with
  | none => s
  | some line =>
    if !archiveOn s then s
    else if let some l := returnedView s.stk .tagRead line then
      let bad := l.any Option.isNone
      tagAnswer (if bad then none else some (lineTag s.stk line)) bad (takeLine .tagRead line s)
    else if !memServes s then memWake s
    else
      match lineAns s line with
      | .off => tagAnswer none true s
      | .refused => tagAnswer none true (countOor s)
      | .dram i =>
        match issueNow 5 (readReq .tagRead line) i s with
        | none => s
        | some s1 =>
          let r := lastReturns i line errs s1
          tagAnswer (if r.1.tagOk then some (lineTag s1.stk line) else none) (!r.1.tagOk ||
            r.1.view.any Option.isNone) r.2

/-- (DEDUCED: log entry 13) -/
def execTagDone (errs : ReadErrs) (s : State) : Ret :=
  if wfRead errs.1 errs.2 then .next (tagDone errs s)
  else .fault .illFormed

end Sys2Proof.Machine
end

