-- ==== Sys2Proof/Machine/Shelf.lean ====
section
/-! DEFINITION. The bay result queue: positions and their late views, writing, reading, watermark, timeout and flush
(chapter 12). -/

namespace Sys2Proof.Machine

/-! ## Positions and fill (R288, R290) -/

/-- `a` less `b` in position order. -/
def posDiff (a b : BitVec 12) : Nat := (a - b).toNat

/-- Words that a queue stores. -/
def shelfSize : Nat := 2048

/-- Rd moves. -/
def moveRd (t : Nat) (rd : BitVec 12) (byRead : Bool) (q : ShelfQ) : ShelfQ :=
  { q with rd := rd, rdTrail := q.rdTrail ++ [(t, rd, byRead)] }

/-- The producer's fill on its view of Rd: W less the later of O and Rd. -/
def viewFill (q : ShelfQ) : Nat := min (posDiff q.w q.o) (posDiff q.w q.rdSeen)

/-- The producer sees a change of Rd in tick `t`. A position that a read reached restarts the timeout (R296).
(DEDUCED: log entry 76) -/
def rdSight (t : Nat) (rd : BitVec 12) (byRead : Bool) (q : ShelfQ) : ShelfQ :=
  let q1 := { q with rdSeen := rd }
  if viewFill q1 = 0 then { q1 with tmoFrom := none }
  else if byRead then { q1 with tmoFrom := some t }
  else q1

/-- The queue in tick `t`: the timebase has seen every change of Rd by the third tick after it (R289). (DEDUCED: log
entry 77) -/
def producerView (t : Nat) (q : ShelfQ) : ShelfQ :=
  (q.rdTrail.filter fun x => decide (x.1 + 3 < t)).foldl (fun q x => rdSight (x.1 + 3) x.2.1 x.2.2 q)
    { q with rdTrail := q.rdTrail.filter fun x => !decide (x.1 + 3 < t) }

/-- The reader's fill, and the producer's in tick `t`. -/
def readerFill (q : ShelfQ) : Nat := posDiff q.wSeen q.rd
def producerFill (t : Nat) (q : ShelfQ) : Nat := viewFill (producerView t q)

/-- The slot of a position. -/
def slotOf (p : BitVec 12) : Nat := p.toNat % shelfSize

/-- The word that a slot holds, with the position at which it was written. -/
def slotGet (q : ShelfQ) (p : BitVec 12) : Option (BitVec 12 × Word) := q.slots.find? fun x => slotOf x.1 == slotOf p

/-- Live watermark and timeout in ticks. -/
def shfWmark (s : State) (b : BayNo) : Nat := live s (.shelf b) 0x040 0 12
def shfTmo (s : State) (b : BayNo) : Nat := 160 * live s (.shelf b) 0x044 0 20

/-! ## Watermark (R295) -/

/-- LEVEL follows the reader's fill; its rise sets WATERMARK and raises the source on the core side. -/
def shelfLevel (b : BayNo) (s : State) : State :=
  let q := (s.bay b).shelf
  let on := decide (shfWmark s b ≤ readerFill q)
  let s1 := s.modShelf b fun q => { q with level := on }
  if on && !q.level then raiseAsync (setEvt s1 (.shelf b) 0) (baySid b 7) else s1

/-! ## Writing (R191, R288, R291) -/

/-- O after a word at W: the slot of W − 2,048 is overwritten, so O stands beyond it. -/
def nextO (q : ShelfQ) : BitVec 12 := if posDiff q.w q.o = shelfSize then q.o + 1 else q.o

/-- A word at W in tick `t`: a full queue loses its oldest word. -/
def shelfPut (t : Nat) (w : Word) (q0 : ShelfQ) : ShelfQ :=
  let q := producerView t q0
  { q with
    slots := (q.slots.filter fun x => slotOf x.1 != slotOf q.w) ++ [(q.w, w)]
    w := q.w + 1, o := nextO q, written := q.written + 1
    tmoFrom := if viewFill q = 0 then some t else q.tmoFrom }

/-- Words written in the present tick. -/
def burstNow (s : State) (q : ShelfQ) : Nat := if q.burstTick = s.tick then q.burst else 0

/-- The words whose pass, from tick B + 2 to B + 33, has not ended (R191). -/
def passLeft (t : Nat) (q : ShelfQ) : List (Nat × Fin 32 × Word × Bool) :=
  q.passWords.dropWhile fun x => decide (x.1 + 33 < t)

/-- The producer stands in an item: its last word ended none, and the next one is still to come. -/
def itemOpen (t : Nat) (q : ShelfQ) : Bool := q.midItem && (passLeft t q).length == q.passWords.length

/-! ## Late views (R289, R292, R296 to R298) -/

/-- The reader sees the O of a flush: it takes it without counting, and the flush is done (R297). (DEDUCED: log entry
76) -/
def flushSeen (b : BayNo) (s : State) : State :=
  match (s.bay b).shelf.flushTo with
  | none => s
  | some (w, o) =>
    setEvt
      (s.modShelf b fun q =>
        { moveRd s.tick w false q with
          flushed := BitVec.ofNat 12 (min (posDiff w o) (posDiff w q.rd)), last := 0, lossPend := false
          flushTo := none })
      (.shelf b) 2

/-- The reader skips to an O later than Rd, and counts what it skips. (DEDUCED: log entry 76) -/
def shelfSkip (b : BayNo) (s : State) : State :=
  let q := (s.bay b).shelf
  let d := posDiff q.oSeen q.rd
  if d = 0 ∨ shelfSize ≤ d then s
  else
    setEvt
      (s.modShelf b fun q =>
        { moveRd s.tick q.oSeen false q with lost := q.lost + BitVec.ofNat 32 d, lossPend := true })
      (.shelf b) 4

/-- The reader sees W and O as they stand. (DEDUCED: log entry 77) -/
def coreSees (b : BayNo) (s : State) : State :=
  shelfLevel b (shelfSkip b (flushSeen b (s.modShelf b fun q => { q with wSeen := q.w, oSeen := q.o })))

/-- The producer sees the changes of Rd made two or three ticks ago; it has seen earlier ones. (DEDUCED: log entry 77)
-/
def timebaseSees (b : BayNo) (s : State) : State :=
  s.modShelf b fun q0 =>
    let q := producerView s.tick q0
    (q.rdTrail.filter fun x => decide (x.1 + 2 ≤ s.tick)).foldl (fun q x => rdSight s.tick x.2.1 x.2.2 q)
      { q with rdTrail := q.rdTrail.filter fun x => !decide (x.1 + 2 ≤ s.tick) }

/-- POSITION_VISIBLE: positions reach the other side. (DESIGN CHOICE: log entry 26; DEDUCED: log entry 77) -/
def positionVisible (b : BayNo) (side : Side) (s : State) : State :=
  if pageUp s (.shelf b) then
    match side with
    | .core => coreSees b s
    | .timebase => timebaseSees b s
  else s

def execPositionVisible (b : BayNo) (side : Side) (s : State) : Ret := .next (positionVisible b side s)

/-! ## The producer's pass (R191, R292) -/

/-- The reader sees an O that has moved by three ticks after the overwrite, in which the producer writes twelve words
(R292). (DEDUCED: log entry 77) -/
def coreCatchUp (b : BayNo) (s : State) : State :=
  if shelfSize + 12 ≤ posDiff (s.bay b).shelf.w (s.bay b).shelf.rd then coreSees b s else s

/-- SHELF_WRITE: the producer writes the next word of its pass, at most four in one tick. (DEDUCED: log entry 133) -/
def shelfWrite (b : BayNo) (s : State) : State :=
  let q := (s.bay b).shelf
  match passLeft s.tick q with
  | [] => s
  | (bound, _, w, ends) :: rest =>
    if pageUp s (.shelf b) && decide (bound + 2 ≤ s.tick) && decide (burstNow s q < 4) then
      (coreCatchUp b s).modShelf b fun x =>
        { shelfPut s.tick w x with
          passWords := rest, midItem := !ends, burstTick := s.tick, burst := burstNow s q + 1 }
    else s

def execShelfWrite (b : BayNo) (s : State) : Ret := .next (shelfWrite b s)

/-! ## Reading (R293, R294, R299, R300) -/

/-- The state in which a read has waited for an O beyond a word that was overwritten. (DEDUCED: log entry 76) -/
def shelfWait (b : BayNo) (s : State) : State :=
  let q := (s.bay b).shelf
  if readerFill q = 0 then s
  else
    match slotGet q q.rd with
    | some (p, _) => if p = q.rd then s else coreSees b s
    | none => s

/-- LOSS in a header that is the first after a skip. (DEDUCED: log entry 76) -/
def withLoss (loss : Bool) (w : Word) : Word := if loss && w.getLsbD 31 then w ||| bit1 17 else w

/-- One word taken: the word, and the state after it. -/
def shelfTake (b : BayNo) (s0 : State) : Word × State :=
  let s := shelfWait b s0
  let q := (s.bay b).shelf
  if readerFill q = 0 then
    (q.last, setEvt (s.modShelf b fun q => { q with under := q.under + 1 }) (.shelf b) 3)
  else
    let w := withLoss q.lossPend (((slotGet q q.rd).map Prod.snd).getD 0)
    (w,
      shelfLevel b (s.modShelf b fun q =>
        { moveRd s.tick (q.rd + 1) true q with
          last := w, lossPend := q.lossPend && !w.getLsbD 31 }))

/-- `n` words taken one after another. -/
def shelfTakeN (b : BayNo) (n : Nat) (s : State) : List Word × State :=
  match n with
  | 0 => ([], s)
  | k + 1 =>
    let (w, s1) := shelfTake b s
    let (l, s2) := shelfTakeN b k s1
    (w :: l, s2)

/-- SHF_DATA_READ: a read of the data window takes one word per doubleword. -/
def shfDataRead (b : BayNo) (n : Nat) (s : State) : State :=
  if !s.host.linkUp then s
  else if pageOpen s (.shelf b) then
    let (l, s1) := shelfTakeN b n s
    answerRead l s1
  else refuseRead (pageBase (.shelf b) + 0x800) 3 n s

/-- (DEDUCED: log entry 13) -/
def execShfDataRead (b : BayNo) (words : Nat) (s : State) : Ret :=
  if 1 ≤ words ∧ words ≤ 512 then .next (shfDataRead b words s) else .fault .illFormed

/-! ## Timeout (R296) -/

/-- TIMEOUT is set, and the count stops until its next restart. -/
def shelfFire (b : BayNo) (s : State) : State :=
  raise (setEvt (s.modShelf b fun q => { q with tmoFrom := none }) (.shelf b) 1) (baySid b 8)

/-- The queue as its producer sees it in the present tick. -/
def shelfSettle (b : BayNo) (s : State) : State := s.modShelf b (producerView s.tick)

/-- The running count of a settled queue reaches its end at the present tick. -/
def shelfExpire (b : BayNo) (s : State) : State :=
  match (s.bay b).shelf.tmoFrom with
  | some t => if shfTmo s b != 0 && sinceIs s t (shfTmo s b) then shelfFire b s else s
  | none => s

/-- SHELF_TIMEOUT: the count reaches 160 × T ticks. -/
def shelfTimeout (b : BayNo) (s : State) : State :=
  if pageUp s (.shelf b) then shelfExpire b (shelfSettle b s) else s

def execShelfTimeout (b : BayNo) (s : State) : Ret := .next (shelfTimeout b s)

/-- A committed timeout acts on the running count. -/
def shelfNewTmo (b : BayNo) (s0 : State) : State :=
  let s := shelfSettle b s0
  match (s.bay b).shelf.tmoFrom with
  | some t =>
    if shfTmo s b = 0 then s.modShelf b fun q => { q with tmoFrom := none }
    else if t + shfTmo s b ≤ s.tick then shelfFire b s
    else s
  | none => s

/-! ## Flush (R297, R298) -/

/-- A flush request reaches the producer; it merges into one that is held. -/
def shelfFlush (b : BayNo) (s : State) : State := s.modShelf b fun q => { q with flushing := true }

def execFlush (b : BayNo) (s : State) : Ret := .next (request (.shelf b) 0x048 .write (shelfFlush b) s)

/-- The producer's step at the flush point: O becomes W, and the timeout count stops with the fill. -/
def shelfFlushed (q : ShelfQ) : ShelfQ :=
  { q with o := q.w, flushing := false, tmoFrom := none, flushTo := some (q.w, q.o) }

/-- FLUSH_POINT: the producer stands between items and sets O to W. (DEDUCED: log entry 76) -/
def flushPoint (b : BayNo) (s : State) : State :=
  let q := (s.bay b).shelf
  if pageUp s (.shelf b) && q.flushing && !itemOpen s.tick q then
    s.modShelf b fun q => shelfFlushed (producerView s.tick q)
  else s

def execFlushPoint (b : BayNo) (s : State) : Ret := .next (flushPoint b s)

end Sys2Proof.Machine
end

