-- ==== Sys2Proof/Machine/HostLink.lean ====
section
/-! DEFINITION. The host link: the BAR2 aperture, the DMA queues, MSI-X, link errors and link resets (chapter 15,
R378 to R400, R500, R503). -/

namespace Sys2Proof.Machine

/-! ## Errors of the link (R386, R396) -/

/-- (DESIGN CHOICE: log entry 98) -/
def corIdx (k : CorKind) : Fin 4 :=
  match k with
  | .receiver => 0
  | .badTlp => 1
  | .badDllp => 2
  | .replay => 3

def uncIdx (k : UncKind) : Fin 4 :=
  match k with
  | .timeout => 0
  | .poisoned => 1
  | .malformed => 2
  | .unexpected => 3

/-- The bits of Advanced Error Reporting's status for a kind of error. HL_COR_ERR and HL_UNC_ERR count two kinds of
the standard together in one field; a free value says which of the two it is. (PRESUMED: log entry 30) -/
def aerCorBit (k : CorKind) (s : State) : Nat :=
  match k with
  | .receiver => 0
  | .badTlp => 6
  | .badDllp => 7
  | .replay => if (freeNow s).getLsbD 2 then 8 else 12

/-- (PRESUMED: log entry 30) -/
def aerUncBit (k : UncKind) (s : State) : Nat :=
  match k with
  | .poisoned => 12
  | .timeout => 14
  | .unexpected => 16
  | .malformed => if (freeNow s).getLsbD 2 then 19 else 18

/-- A correctable error; the first of its kind in a window of 160,000 ticks is logged. The replays that recovered it
are a free value of the entry's ATTEMPTS. (DESIGN CHOICE: log entry 98) -/
def corErr (k : CorKind) (s0 : State) : State :=
  let i := corIdx k
  let s := takeFree s0
  let win := s.tick / 160000
  let s1 := setEvt (s.modHost fun h =>
    { h with cor := vmod h.cor i fun n => n + 1, aerCor := h.aerCor ||| bit1 (aerCorBit k s0) }) .host 3
  if s.host.corWin[i] = some win then s1
  else
    detect (s1.modHost fun h => { h with corWin := vset h.corWin i (some win) }) .host i.val 0x71
      ((freeNow s0).toNat % 4) clsTransient

def execCorErr (k : CorKind) (s : State) : Ret := .next (if domUp s 1 then corErr k s else s)

/-- An uncorrectable error. -/
def uncErr (k : UncKind) (s0 : State) : State :=
  let i := uncIdx k
  let s := takeFree s0
  detect
    (setEvt (s.modHost fun h =>
      { h with unc := vmod h.unc i fun n => n + 1, aerUnc := h.aerUnc ||| bit1 (aerUncBit k s0) }) .host 4)
    .host i.val 0x72 0 clsLasting

def execUncErr (k : UncKind) (s : State) : Ret := .next (if domUp s 1 then uncErr k s else s)

/-! ## Ledger words that leave the device (R384, R385) -/

/-- A word that egress found corrected or uncorrectable; `unit` names BAR2 or the DMA queue. -/
def egressCount (unit : Nat) (d : Decoded) (s : State) : State :=
  match d with
  | .corrected =>
    detect (setEvt (s.modHost fun h => { h with
      egressCorr := h.egressCorr + 1 }) .host 5) .host unit 0x70 0 clsTransient
  | .uncorrectable =>
    detect (setEvt (s.modHost fun h => { h with egressUncorr := h.egressUncorr + 1 }) .host 5) .host unit 0x70 0
      clsLasting
  | .clean | .poison => s

/-- One block of a read as it leaves: `view` is what Stacks returned, `none` for poison. -/
def egressBlock (view : List (Option Byte)) (err : SymErrs) : Decoded × List (Option Byte) :=
  if view.any Option.isNone then (.clean, List.replicate 32 none)
  else
    let (d, data) := ledgerArrive (view.map fun x => x.getD 0) false err
    if d = .uncorrectable ∨ d = .poison then (d, List.replicate 32 none) else (d, data.map some)

/-- The blocks that `n` bytes from address `a` touch, with their numbers in the access. -/
def blocksOf (a n : Nat) : List (Nat × Nat) :=
  if n = 0 then [] else (List.range ((a + n - 1) / 32 - a / 32 + 1)).map fun i => (i, a / 32 + i)

/-- A read of `n` bytes from address `a` that leaves the device: its bytes, `none` where they are sent poisoned, and the
state after it; none while it must wait. `base` is the address at which the whole access begins. -/
def egressRead (from_ : Requester) (unit base a n : Nat) (errs : List (Nat × SymErrs)) (dram : LineReads) (s : State) :
    Option (List (Option Byte) × State) :=
  (readLines 2 from_ (base / 64) dram (linesOf a n) s).map fun r =>
    let l := (blocksOf a n).map fun x =>
      let view := (r.1.drop (32 * x.2 - a / 64 * 64)).take 32
      egressBlock view (((errs.find? fun e => e.1 == x.2 - base / 32).map Prod.snd).getD [])
    (((l.flatMap Prod.snd).drop (a % 32)).take n, r.2.each l fun x => egressCount unit x.1)

/-- Poisoned bytes read as 0xFF. -/
def sentBytes (l : List (Option Byte)) : List Byte := l.map fun x => x.getD 0xFF

/-! ## BAR2 (R382, R383, R386) -/

/-- The DRAM address of a BAR2 offset. -/
def bar2Addr (s : State) (offset : BitVec 36) : Nat := s.host.bar2Base.toNat * 2 ^ 30 + offset.toNat

/-- A BAR2 request goes through port P2; none while a read must wait. (DEDUCED: log entry 117) -/
def bar2Do (r : Bar2Req) (s : State) : Option State :=
  match r.op with
  | .read len errs dram =>
    (egressRead .bar2 0 r.addr r.addr len errs dram s).map fun x =>
      x.2.modOut fun o => { o with bar2 := sentBytes x.1, bar2Poisoned := x.1.any Option.isNone }
  | .write bytes poisoned dram =>
    let s1 := writeBytes 2 .bar2 r.addr (r.addr / 64) bytes (fun _ => poisoned) dram s
    some (if poisoned then uncErr .poisoned s1 else s1)

/-- The BAR2 requests of a list in their order, up to the first that must wait. (DEDUCED: log entry 117) -/
def bar2Pass (l : List Bar2Req) (s : State) : State :=
  match l with
  | [] => s.modHost fun h => { h with bar2Wait := [] }
  | r :: rest =>
    match bar2Do r s with
    | some s1 => bar2Pass rest s1
    | none => s.modHost fun h => { h with bar2Wait := r :: rest }

/-- The BAR2 requests that wait are taken as far as Stacks serves them. (DEDUCED: log entry 117) -/
def bar2Serve (s : State) : State :=
  if s.host.bar2Wait.isEmpty then s
  else if !memServes s then memWake s
  else bar2Pass s.host.bar2Wait s

/-- BAR2_ACCESS: the request takes the window base as it stands (R383), and its turn behind those that wait. (DEDUCED:
log entry 117) -/
def bar2Access (offset : BitVec 36) (op : Bar2Op) (s : State) : State :=
  if !pageUp s .host || !s.host.linkUp then s
  else
    bar2Serve (s.modHost fun h => { h with bar2Wait := h.bar2Wait ++ [{ addr := bar2Addr s offset, op := op }] })

/-- (DEDUCED: log entry 13) -/
def execBar2Access (offset : BitVec 36) (op : Bar2Op) (s : State) : Ret :=
  if wfBar2 op then .next (bar2Access offset op s) else .fault .illFormed

/-- HL_BAR2_BASE written. -/
def bar2Base (w : Word) (s : State) : State := s.modHost fun h => { h with bar2Base := w.extractLsb' 0 11 }

def execBar2BaseWrite (w : Word) (s : State) : Ret := .next (request .host 0x048 .write (bar2Base w) s)

/-! ## Configuration of a DMA queue (R400) -/

def dmaField (s : State) (q : Fin 16) (off lsb width : Nat) : Nat := live s (dmaPage q) (dmaSlot q + off) lsb width

def dmaEnable (s : State) (q : Fin 16) : Bool := dmaField s q 0x00 0 1 == 1
def dmaType (s : State) (q : Fin 16) : Nat := dmaField s q 0x00 1 2
def dmaHaltOnErr (s : State) (q : Fin 16) : Bool := dmaField s q 0x00 3 1 == 1
def dmaBay (s : State) (q : Fin 16) : BayNo := ⟨dmaField s q 0x00 4 4 % 16, Nat.mod_lt _ (by decide)⟩
def dmaSize (s : State) (q : Fin 16) : Nat := 2 ^ (dmaField s q 0x00 8 4 + 4)
def dmaRing (s : State) (q : Fin 16) : Nat := dmaField s q 0x08 0 32 + 2 ^ 32 * dmaField s q 0x0C 0 32
def dmaWb (s : State) (q : Fin 16) : Nat := dmaField s q 0x10 0 32 + 2 ^ 32 * dmaField s q 0x14 0 32

/-- DESC_DONE, ERROR and IDLE of a queue in its page's EVT. -/
def dmaEvt (q : Fin 16) (k : Nat) : Nat := 3 * (q.val % 8) + k

/-- The state of a queue that has descriptors to take, or none (R387, R393). (DEDUCED: log entry 96) -/
def dmaRun (s : State) (x : DmaQ) : QState :=
  if x.head = x.tail then .idle else if s.host.bme then .active else .paused

/-! ## Doorbell, stop and resume (R387, R389, R390) -/

/-- HL_Q_TAIL written. (DEDUCED: log entry 96) -/
def doorbell (q : Fin 16) (w : Word) (s : State) : State :=
  s.modDma q fun x =>
    let y := { x with tail := BitVec.ofNat 16 ((w.extractLsb' 0 16).toNat % dmaSize s q) }
    if y.state = .idle then { y with state := dmaRun s y } else y

def execDoorbell (q : Fin 16) (w : Word) (s : State) : Ret :=
  .next (request (dmaPage q) (dmaSlot q + 0x18) .write (doorbell q w) s)

/-- HL_Q_CTL.STOP: the descriptor in progress completes first. (DEDUCED: log entry 96) -/
def dmaStop (q : Fin 16) (s : State) : State :=
  s.modDma q fun x =>
    match x.state with
    | .disabled | .idle => x
    | .halted => { x with state := .idle }
    | .active | .paused => { x with stopReq := true }

def execDmaStop (q : Fin 16) (s : State) : Ret := .next (request (dmaPage q) (dmaSlot q + 0x20) .write (dmaStop q) s)

/-- HL_Q_CTL.RESUME: a HALTED or IDLE queue continues at HEAD. -/
def dmaResume (q : Fin 16) (s : State) : State :=
  s.modDma q fun x =>
    match x.state with
    | .idle | .halted => { x with state := dmaRun s x }
    | .disabled | .active | .paused => x

def execResume (q : Fin 16) (s : State) : Ret := .next (request (dmaPage q) (dmaSlot q + 0x20) .write (dmaResume q) s)

/-! ## Completion of a descriptor (R388, R389) -/

def flagShort : Nat := 1
def flagPoison : Nat := 2
/-- (DESIGN CHOICE: log entry 95) -/
def flagRange : Nat := 4
def flagHostErr : Nat := 8
def flagAborted : Nat := 16
def flagBadDesc : Nat := 32

/-- A write into host memory; while Bus Master Enable is 0 it waits (R393). (DESIGN CHOICE: log entry 12; PRESUMED:
log entry 30) -/
def hostWrite (a : Nat) (bytes : List Byte) (poisoned : Bool) (s : State) : State :=
  let w : HostWrite := { addr := BitVec.ofNat 64 a, bytes := bytes, poisoned := poisoned }
  if bytes.isEmpty then s
  else if s.host.bme then s.modOut fun o => { o with writes := o.writes ++ [w] }
  else s.modHost fun h => { h with heldWrites := h.heldWrites ++ [w] }

/-- A read of host memory. -/
def hostRead (a n : Nat) (s : State) : State :=
  if n = 0 then s else s.modOut fun o => { o with reads := o.reads ++ [(BitVec.ofNat 64 a, n)] }

/-- The 32 bytes of a descriptor (R387). -/
def readDesc (l : List Byte) : Descriptor :=
  let part (o n : Nat) : Nat := leNat ((l.drop o).take n)
  { hostAddr := BitVec.ofNat 64 (part 0x00 8), devAddr := BitVec.ofNat 64 (part 0x08 8)
    length := BitVec.ofNat 32 (part 0x10 4), ctrl := BitVec.ofNat 32 (part 0x14 4) }

/-- Ring entry `i` lies at RING + 32 × i. -/
def descAt (s : State) (q : Fin 16) (i : Nat) : Nat := dmaRing s q + 32 * i

/-- STATUS and BYTES in one write to the descriptor of HEAD. (DESIGN CHOICE: log entry 95) -/
def statusWrite (q : Fin 16) (flags moved : Nat) (s : State) : State :=
  hostWrite (descAt s q (s.dmaQ q).head.toNat + 0x18)
    (leBytes 4 (flags + 2 ^ 31) ++ leBytes 4 moved) false s

/-- HEAD written back where HL_Q_WB is not 0. -/
def headBack (q : Fin 16) (s : State) : State :=
  if dmaWb s q = 0 then s else hostWrite (dmaWb s q) (leBytes 4 (s.dmaQ q).head.toNat) false s

/-- The flags halt the queue. (DEDUCED: log entry 96) -/
def halts (s : State) (q : Fin 16) (flags : Nat) : Bool :=
  flags.testBit 3 || flags.testBit 5 || ((flags.testBit 1 || flags.testBit 2) && dmaHaltOnErr s q)

/-- The flags set the ERROR event. -/
def errs (flags : Nat) : Bool := flags.testBit 1 || flags.testBit 2 || flags.testBit 3 || flags.testBit 5

/-- A descriptor completes with flags after a number of bytes: status, HEAD, counters and events. (DESIGN CHOICE: log
entry 95) -/
def descDone (q : Fin 16) (flags moved : Nat) (irq : Bool) (s : State) : State :=
  let s1 := statusWrite q flags moved s
  let s2 := s1.modDma q fun x =>
    let head := BitVec.ofNat 16 ((x.head.toNat + 1) % dmaSize s q)
    let y := { x with
      head := head, bytes := x.bytes + BitVec.ofNat 64 moved, descs := x.descs + 1, flags := BitVec.ofNat 6 flags
      taken := [], cur := none, moved := 0, soFar := 0, stopReq := false }
    { y with
      state := if halts s q flags then .halted else if x.stopReq then .idle else dmaRun s y }
  let s3 := headBack q s2
  let s4 := if irq then setEvt s3 (dmaPage q) (dmaEvt q 0) else s3
  let s5 := if errs flags then setEvt s4 (dmaPage q) (dmaEvt q 1) else s4
  if (s5.dmaQ q).head = (s5.dmaQ q).tail then setEvt s5 (dmaPage q) (dmaEvt q 2) else s5

/-- A descriptor that moves nothing (R388, BAD_DESC). -/
def badDesc (shelf : Bool) (d : Descriptor) : Bool :=
  d.length = 0 || decide (2 ^ 24 < d.length.toNat) || d.ctrl.toNat / 4 != 0 ||
  (!shelf && d.devAddr.toNat / 2 ^ 41 != 0) || (shelf && d.length.toNat % 4 != 0)

def descIrq (d : Descriptor) : Bool := d.ctrl.getLsbD 0

/-- Some of the bytes `o` to `o + n − 1` of a transfer arrived poisoned. -/
def inParts (l : List (Nat × Nat)) (i : Nat) : Bool := l.any fun x => decide (x.1 ≤ i) && decide (i < x.1 + x.2)

/-- The bytes of one turn of a queue (R390). -/
def turnBytes : Nat := 4096

/-- The byte of a transfer up to which this command moves it. (DESIGN CHOICE: log entry 95) -/
def turnEnd (x : HostData) (moved len : Nat) : Nat := if x.turn then min len (moved + turnBytes) else len

/-- The descriptor in progress has moved `to` bytes. Once it is over it completes, when every write of it has entered
the queues of Stacks (R388). -/
def dmaEnd (q : Fin 16) (d : Descriptor) (flags to_ : Nat) (ended : Bool) (s : State) : State :=
  if ended && !writesWait s (.dma q) then descDone q flags to_ (descIrq d) s
  else s.modDma q fun y => { y with moved := to_, soFar := flags }

/-- The end of the bytes that a failed read leaves written: the bytes of a block received only in part are written or
not, as a free value says. -/
def failedEnd (s : State) (a k : Nat) : Nat := if (freeNow s).getLsbD 0 then k else max a ((a + k) / 32 * 32) - a

/-- H2D: the bytes received enter DRAM; blocks that poisoned completions touch are written as poison. (DESIGN CHOICE:
log entry 94) -/
def h2d (q : Fin 16) (d : Descriptor) (x : HostData) (s0 : State) : State :=
  let y := s0.dmaQ q
  let a := d.devAddr.toNat
  let s := takeFree s0
  if y.soFar.testBit 3 then dmaEnd q d y.soFar y.moved true s
  else
    let lim := turnEnd x y.moved d.length.toNat
    let failed := match x.failedAt with | some k => decide (k < lim) | none => false
    let to_ := if failed then max y.moved (failedEnd s0 a ((x.failedAt).getD 0)) else lim
    let n := to_ - y.moved
    let bytes : List (Option Byte) := (List.range n).map fun i => some (x.bytes[y.moved + i]?.getD 0)
    let bad := fun i => inParts x.poisoned (y.moved + i)
    let s1 := writeBytes 2 (.dma q) (a + y.moved) (a / 64) bytes bad x.dram
      (hostRead (d.hostAddr.toNat + y.moved) (lim - y.moved) s)
    let parts := x.poisoned.filter fun z => decide (y.moved ≤ z.1) && decide (z.1 < to_)
    let poisoned := (List.range n).any bad
    let flags := y.soFar ||| ((if poisoned then flagPoison else 0) + (if memRange s (a + y.moved) n then flagRange
      else 0) +
      (if failed then flagHostErr else 0))
    dmaEnd q d flags to_ (failed || decide (d.length.toNat ≤ to_)) (s1.each parts fun _ => uncErr .poisoned)

/-- The data writes of a D2H descriptor: one for each block, with EP where the block is sent poisoned. -/
def d2hWrites (host a : Nat) (l : List (Option Byte)) (s : State) : State :=
  s.each (blocksOf a l.length) fun x s =>
    let first := max a (32 * x.2) - a
    let part := (l.drop first).take (32 * x.2 + 32 - max a (32 * x.2))
    hostWrite (host + first) (sentBytes part) (part.any Option.isNone) s

/-- D2H: DRAM bytes are written into host memory; `unread` stands where the reads must wait. -/
def d2h (q : Fin 16) (d : Descriptor) (x : HostData) (unread s : State) : State :=
  let y := s.dmaQ q
  let a := d.devAddr.toNat
  let lim := turnEnd x y.moved d.length.toNat
  let n := lim - y.moved
  match egressRead (.dma q) (1 + q.val) a (a + y.moved) n x.egress x.dram s with
  | none => unread
  | some (l, s1) =>
    let flags := y.soFar ||| ((if l.any Option.isNone then flagPoison else 0) +
      (if memRange s (a + y.moved) n then flagRange else 0))
    dmaEnd q d flags lim (decide (d.length.toNat ≤ lim)) (d2hWrites (d.hostAddr.toNat + y.moved) (a + y.moved) l s1)

/-- The words that a SHELF descriptor holds, as bytes. -/
def shelfBytes (x : DmaQ) : List Byte := x.taken.flatMap fun w => leBytes 4 w.toNat

/-- A SHELF descriptor completes with the words that it holds. -/
def shelfComplete (q : Fin 16) (d : Descriptor) (flags : Nat) (s : State) : State :=
  let l := shelfBytes (s.dmaQ q)
  descDone q flags l.length (descIrq d) (hostWrite d.hostAddr.toNat l false s)

/-- SHELF: words are taken up to the fill that the reader sees; a full descriptor completes (R391). -/
def shelfMove (q : Fin 16) (d : Descriptor) (s : State) : State :=
  let b := dmaBay s q
  if !pageUp s (.shelf b) then s
  else
    let n := min (readerFill (s.bay b).shelf) (d.length.toNat / 4 - (s.dmaQ q).taken.length)
    let (l, s1) := shelfTakeN b n s
    let s2 := s1.modDma q fun x =>
      { x with
        taken := x.taken ++ l, lastTake := if l.isEmpty then x.lastTake else s.tick }
    if d.length.toNat / 4 ≤ (s2.dmaQ q).taken.length then shelfComplete q d 0 s2 else s2

/-- The queue takes the descriptor of HEAD from its ring, unless one is in progress. One descriptor of a queue is in
progress at a time, so each starts when every earlier one is complete, as CTRL.FENCE asks (R387). (DESIGN CHOICE: log
entry 95) -/
def descTaken (q : Fin 16) (d : Descriptor) (s : State) : State :=
  if (s.dmaQ q).cur.isSome then s
  else
    (hostRead (descAt s q (s.dmaQ q).head.toNat) 32 s).modDma q fun x => { x with
      cur := some d, moved := 0, soFar := 0 }

/-- DESCRIPTOR_COMPLETE: the queue's turns at the descriptor of HEAD, whose 32 bytes are `entry`. -/
def descriptorComplete (q : Fin 16) (entry : List Byte) (x : HostData) (s : State) : State :=
  if pageUp s (dmaPage q) && decide ((s.dmaQ q).state = .active) && s.host.bme then
    let d := ((s.dmaQ q).cur).getD (readDesc entry)
    let t := dmaType s q
    let s1 := descTaken q d s
    if badDesc (t == 2) d then descDone q flagBadDesc 0 (descIrq d) s1
    else if t = 2 then shelfMove q d s1
    else if !memServes s then memWake s
    else if t = 0 then h2d q d x s1
    else d2h q d x s s1
  else s

/-- (DEDUCED: log entry 13) -/
def execDescriptorComplete (q : Fin 16) (entry : List Byte) (data : HostData) (s : State) : Ret :=
  if wfDesc entry data then .next (descriptorComplete q entry data s) else .fault .illFormed

/-- SHELF_DESC_TIMEOUT: no further word has arrived for SHF_TMO (R391). (DESIGN CHOICE: log entry 95) -/
def shelfDescTimeout (q : Fin 16) (s : State) : State :=
  let x := s.dmaQ q
  let b := dmaBay s q
  match x.cur with
  | some d =>
    if pageUp s (dmaPage q) && decide (x.state = .active) && !x.taken.isEmpty && shfTmo s b != 0 &&
        decide (x.lastTake + shfTmo s b ≤ s.tick) && readerFill (s.bay b).shelf == 0 then
      shelfComplete q d flagShort s
    else s
  | none => s

def execShelfDescTimeout (q : Fin 16) (s : State) : Ret := .next (shelfDescTimeout q s)

/-! ## Commits of a DMA page (R390, R392) -/

/-- Another enabled SHELF queue is bound to the bay. (DEDUCED: log entry 96) -/
def bayBound (s : State) (q : Fin 16) : Bool :=
  (allFin 16).any fun r =>
    r != q && dmaEnable s r && dmaType s r == 2 && dmaBay s r == dmaBay s q && decide ((s.dmaQ r).state ≠ .disabled)

/-- A queue whose configuration a commit has changed: the descriptor in progress ends with ABORTED, and HEAD and TAIL
return to 0. `old` is the state before the commit. (DESIGN CHOICE: log entry 95) -/
def dmaAborted (old : State) (q : Fin 16) (s : State) : State :=
  let x := s.dmaQ q
  let s1 :=
    match x.cur with
    | some d =>
      -- the words taken so far are written; status goes to the ring in force before the commit
      let l := shelfBytes x
      let n := x.moved + l.length
      let w := hostWrite (descAt old q x.head.toNat + 0x18)
        (leBytes 4 (flagAborted + 2 ^ 31) ++ leBytes 4 n) false (hostWrite d.hostAddr.toNat l false s)
      let w1 := w.modDma q fun x =>
        { x with
          bytes := x.bytes + BitVec.ofNat 64 n, descs := x.descs + 1, flags := BitVec.ofNat 6 flagAborted }
      if descIrq d then setEvt w1 (dmaPage q) (dmaEvt q 0) else w1
    | none => s
  s1.modDma q fun x =>
    { x with
      head := 0, tail := 0, stopReq := false, taken := [], cur := none, moved := 0, soFar := 0, state := .disabled
      conflict := false }

/-- The queue runs under its new configuration, unless another SHELF queue is bound to its bay. -/
def dmaEnabled (q : Fin 16) (s : State) : State :=
  if !dmaEnable s q then s
  else if dmaType s q = 2 ∧ bayBound s q then s.modDma q fun x => { x with conflict := true }
  else s.modDma q fun x => { x with state := .idle }

/-- The queues that a commit has changed, in ascending number, so that the lower-numbered one is bound (R392). (DESIGN
CHOICE: log entry 95) -/
def dmaChanged (old : State) (l : List (Fin 16)) (s : State) : State :=
  (s.each l (dmaAborted old)).each l dmaEnabled

/-! ## MSI-X (R393, R394) -/

/-- A pending message of an unmasked vector is sent. -/
def msixSend (v : Fin 64) (s : State) : State :=
  let e := s.host.msix[v]
  if s.host.msixEn && !s.host.funcMask && !e.masked && e.pend then
    (s.modHost fun h => { h with msix := vmod h.msix v fun e => { e with pend := false } }).modOut fun o =>
      { o with msgs := o.msgs ++ [{ vector := BitVec.ofNat 6 v.val, addr := e.addr, data := e.data }] }
  else s

/-- A vector is unmasked. -/
def msixUnmask (v : Fin 64) (s : State) : State :=
  msixSend v (s.modHost fun h => { h with msix := vmod h.msix v fun e => { e with masked := false } })

def execMsixUnmask (v : Fin 64) (s : State) : Ret := .next (request .msix (0x40C + 16 * v.val) .write (msixUnmask v) s)

/-- BUS_MASTER_ENABLE_CHANGE: the configuration space takes Bus Master Enable, the MSI-X controls and the others. The
bases of the BARs keep the alignment of their sizes (R380). (PRESUMED: log entry 30) -/
def busMaster (on : Bool) (msix : MsixCtl) (ctl : CfgCtl) (s : State) : State :=
  let s1 := s.modHost fun h =>
    { h with
      bme := on, msixEn := msix.en, funcMask := msix.mask
      ctl := { ctl with bar0 := ctl.bar0 >>> 24 <<< 24, bar2 := ctl.bar2 >>> 36 <<< 36 }
      heldWrites := if on then [] else h.heldWrites
      dma := h.dma.map fun x =>
        match x.state with
        | .active => if on then x else { x with state := .paused }
        | .paused => if on then { x with state := .active } else x
        | .disabled | .idle | .halted => x }
  let s2 := if on then s1.modOut fun o => { o with writes := o.writes ++ s.host.heldWrites } else s1
  s2.each (allFin 64) msixSend

def execBusMasterEnableChange (on : Bool) (msix : MsixCtl) (ctl : CfgCtl) (s : State) : Ret :=
  .next (if domUp s 1 then busMaster on msix ctl s else s)

/-! ## The configuration header (R378 to R380) -/

def vendorId : Nat := 0x1E7A
def deviceId : Nat := 0x0512
def revisionId : Nat := 0x21
def classCode : Nat := 0x118000

/-- A doubleword of the Type 0 configuration header, by its number: the identity of R379, Command with Memory Space
Enable and Bus Master Enable, and the BARs of R380. Interrupt Pin, BAR4, BAR5 and the expansion ROM read 0. (PRESUMED:
log entry 30) -/
def configWord (s : State) (n : Nat) : Word :=
  let h := s.host
  match n with
  | 0 => BitVec.ofNat 32 (deviceId * 2 ^ 16 + vendorId)
  | 1 => (if h.ctl.memSpace then 2 else 0) ||| (if h.bme then 4 else 0)
  | 2 => BitVec.ofNat 32 (classCode * 2 ^ 8 + revisionId)
  | 4 => lo32 h.ctl.bar0 ||| 0x4
  | 5 => hi32 h.ctl.bar0
  | 6 => lo32 h.ctl.bar2 ||| 0xC
  | 7 => hi32 h.ctl.bar2
  | 11 => BitVec.ofNat 32 (deviceId * 2 ^ 16 + vendorId)
  | _ => 0

/-! ## Link up and down (R397, R398, R457, R503) -/

/-- A page takes its reset values, but its words at the offsets of a list. -/
def pageReset (p : Page) (keep : List Nat) (s : State) : State :=
  s.modPage p fun h =>
    let kept (st : RegStore) : RegStore := st.filter fun x => keep.contains x.1
    { PageHdr.reset (vecReset p) with draft := kept h.draft, live := kept h.live }

/-- The DMA pages and queues take their reset values. -/
def dmaResetAll (s : State) : State :=
  (pageReset (.dma 1) [] (pageReset (.dma 0) [] s)).modHost fun h => { h with dma := Vector.replicate 16 DmaQ.reset }

/-- A BAR2 write, which is posted, and so needs the link no more. -/
def isWrite2 (r : Bar2Req) : Bool := match r.op with | .write .. => true | .read .. => false

/-- The pages of the host link take their reset values, but HL_CFG. (DEDUCED: log entries 97, 117) -/
def hostPagesReset (s : State) : State :=
  let s1 := dmaResetAll (pageReset .msix [] (pageReset .host [0x044] s))
  s1.modHost fun h =>
    { HostLink.reset with
      linkUp := h.linkUp, rate := h.rate, width := h.width, perst := h.perst, corWin := h.corWin
      aerCor := h.aerCor, aerUnc := h.aerUnc, bar2Wait := h.bar2Wait.filter isWrite2 }

/-- HL_CFG.DOWN_ACT closes every shutter with cause 0x7. (DEDUCED: log entry 97) -/
def downAct (s : State) : State :=
  if liveBit s .host 0x044 0 then
    s.each ((allFin 512).filter fun g => bayUp s (bayOf g)) fun g s => if shut s g then closeTick s g 7 else s
  else s

/-- LINK_DOWN. (DEDUCED: log entry 97) -/
def linkDown (s : State) : State :=
  if domUp s 1 && s.host.linkUp then
    let s1 := (hostPagesReset s).modHost fun h => { h with linkUp := false, rate := 0, width := 0 }
    downAct (setEvt s1 .host 0)
  else s

def execLinkDown (s : State) : Ret := .next (linkDown s)

/-- FLR. (DEDUCED: log entry 97) -/
def flr (s : State) : State := if domUp s 1 then setEvt (hostPagesReset s) .host 6 else s

def execFlr (s : State) : Ret := .next (flr s)

/-- LINK_UP: the link reaches L0. -/
def linkUp (rate : BitVec 4) (width : BitVec 6) (s : State) : State :=
  if domUp s 1 && !s.host.linkUp && !s.host.perst then
    setEvt (s.modHost fun h => { h with linkUp := true, rate := rate, width := width }) .host 1
  else s

/-- (DEDUCED: log entry 13) -/
def execLinkUp (rate : BitVec 4) (width : BitVec 6) (s : State) : Ret :=
  if wfLink rate width then .next (linkUp rate width s) else .fault .illFormed

/-- LINK_RATE_OR_WIDTH_CHANGE. -/
def linkChange (rate : BitVec 4) (width : BitVec 6) (s : State) : State :=
  if domUp s 1 && s.host.linkUp then
    setEvt (s.modHost fun h => { h with rate := rate, width := width }) .host 2
  else s

/-- (DEDUCED: log entry 13) -/
def execLinkRateOrWidthChange (rate : BitVec 4) (width : BitVec 6) (s : State) : Ret :=
  if wfLink rate width then .next (linkChange rate width s) else .fault .illFormed

/-- PERST_RELEASE: link training begins. -/
def execPerstRelease (s : State) : Ret :=
  .next (if s.power.powered then s.modHost fun h => { h with perst := false } else s)

end Sys2Proof.Machine
end

