-- ==== Sys2Proof/Machine/Lintel.lean ====
section
/-! DEFINITION. Lintel: the estimate, the shares, the reduction and release of limits (chapter 8, R211 to R224,
R499). -/

namespace Sys2Proof.Machine

/-! ## Exact fractions -/

/-- num ÷ den. -/
structure Frac where
  num : Int
  den : Nat

/-- (DEDUCED: log entry 62) -/
def Frac.add (a b : Frac) : Frac :=
  if a.den = b.den then ⟨a.num + b.num, a.den⟩ else ⟨a.num * b.den + b.num * a.den, a.den * b.den⟩

def Frac.mul (a b : Frac) : Frac := ⟨a.num * b.num, a.den * b.den⟩

def Frac.sum (l : List Frac) : Frac := l.foldl Frac.add ⟨0, 1⟩

/-- The mean of a list, 0 of none. -/
def Frac.mean (l : List Frac) : Frac :=
  match l with
  | [] => ⟨0, 1⟩
  | x :: rest => let t := rest.foldl Frac.add x; ⟨t.num, t.den * (rest.length + 1)⟩

/-- Rounded down. (DEDUCED: log entry 62) -/
def Frac.floor (a : Frac) : Int := a.num / (a.den : Int)

def Frac.le (a b : Frac) : Bool := decide (a.num * b.den ≤ b.num * a.den)

/-! ## The estimate (R211, R212) -/

/-- Current of a Native frame in nA, positive when the stage sources. (DEDUCED: log entry 60) -/
def boxAmps (x : Box) : Frac := ⟨((x.i : Int) - x.n * 2 ^ 23) * spanFs x.span, x.n * 2 ^ 22⟩

def Frac.abs (a : Frac) : Frac := ⟨a.num.natAbs, a.den⟩

/-- Headroom of a frame in µV, for rail readings in mV. -/
def boxHead (vfp vfn : Nat) (x : Box) : Frac :=
  let v : Int := 25 * ((x.v : Int) - x.n * 2 ^ 22)
  let unit : Int := 32000 * x.n
  if 0 ≤ (boxAmps x).num then ⟨vfp * unit - v, 32 * x.n⟩ else ⟨v + vfn * unit, 32 * x.n⟩

/-- Dissipation of a frame in nA × µV, 0 for a Booster frame. -/
def boxPower (vfp vfn : Nat) (x : Box) : Frac :=
  if x.boost || x.n == 0 then ⟨0, 1⟩ else (boxAmps x).abs.mul (boxHead vfp vfn x)

/-- nA × µV in a µW. -/
def perMicrowatt : Nat := 1000000000

/-- What a window gives for one channel: d in µW, a in nA, h in µV. -/
structure LinWin where
  d : Nat
  a : Frac
  h : Frac

/-- The window of the 16 newest frames (R211): d is a mean over 16 frames (R212). Means of current and headroom are
over its Native frames. (DEDUCED: log entries 60, 62) -/
def linWin (vfp vfn : Nat) (l : List Box) : LinWin :=
  let nat := l.filter fun x => !x.boost && x.n != 0
  { d := ((Frac.sum (l.map (boxPower vfp vfn))).mul ⟨1, 16 * perMicrowatt⟩).floor.toNat
    a := Frac.mean (nat.map fun x => (boxAmps x).abs)
    h := Frac.mean (nat.map (boxHead vfp vfn)) }

/-! ## Shares (R214) -/

def linBudget (s : State) : Nat := live s .lintel 0x040 0 18
def linShare (s : State) (b : BayNo) : Nat := live s .lintel (0x100 + 4 * b.val) 0 16
def linSum (s : State) : Nat := ((allFin 16).map (linShare s)).sum
def linScaled (s : State) : Bool := decide (linBudget s < linSum s)

/-- The effective share S in mW. -/
def linEff (s : State) (b : BayNo) : Nat :=
  if linScaled s then linShare s b * linBudget s / linSum s else linShare s b

/-- A commit of the Lintel page settles the shares. -/
def lintelShares (s : State) : State := if linScaled s then setEvt s .lintel 2 else s

/-- Priority class of a channel (R217). -/
def linClass (s : State) (g : ChanNo) : Nat :=
  live s .lintel (0x200 + 8 * (bayOf g).val + 4 * ((inBay g).val / 16)) (2 * ((inBay g).val % 16)) 2

/-! ## The reduction (R215, R218, R219) -/

/-- The floor F in nA and in limit units. -/
def linFloorNa : Nat := 6000000
def linFloor : Nat := 12288

/-- A current in nA in limit units of 15,625 ÷ 32 nA, rounded down. -/
def linUnits (x : Frac) : Nat := (x.mul ⟨32, 15625⟩).floor.toNat

/-- a − F. -/
def overFloor (w : LinWin) : Frac := w.a.add ⟨-(linFloorNa : Int), 1⟩

/-- Span E at the boundary, Native, and a > F. -/
def reducible (s : State) (g : ChanNo) (w : LinWin) : Bool :=
  !(s.chan g).force.boostLive && (s.chan g).force.spanLive == .e && decide (0 < (overFloor w).num)

/-- h × (a − F) in nA × µV. -/
def linGain (w : LinWin) : Frac := w.h.mul (overFloor w)

/-- F + (1 − E ÷ R) × (a − F) in limit units. (DEDUCED: log entry 62) -/
def linReduced (w : LinWin) (e r : Frac) : Nat :=
  -- (R − E) ÷ R × (a − F) + F
  let left := r.add ⟨-e.num, e.den⟩
  let g : Frac := ⟨left.num * r.den, left.den * r.num.toNat⟩
  linUnits ((g.mul (overFloor w)).add ⟨linFloorNa, 1⟩)

/-- The limits of a bay while the reduction runs. -/
structure LinRed where
  lims : List (ChanNo × Nat)
  e : Frac
  cls : Option Nat
  done : Bool

/-- One class of the reduction: `l` holds the reducible channels with their class and window. -/
def linClassStep (l : List (ChanNo × Nat × LinWin)) (x : LinRed) (k : Nat) : LinRed :=
  let group := l.filter fun y => y.2.1 == k
  let r := Frac.sum (group.map fun y => linGain y.2.2)
  if x.done || r.num == 0 then x
  else
    let fits := x.e.le r
    let new (g : ChanNo) (lim : Nat) : Nat :=
      match group.find? fun y => y.1 == g with
      | some y => min lim (if fits then linReduced y.2.2 x.e r else linFloor)
      | none => lim
    { lims := x.lims.map fun y => (y.1, new y.1 y.2), e := if fits then ⟨0, 1⟩ else x.e.add ⟨-r.num, r.den⟩
      cls := some k, done := fits }

/-- R218 for one bay: the new limits, the class reached, and whether the bay is at the floor. -/
def linEvaluate (s : State) (b : BayNo) (wins : List (ChanNo × LinWin)) :
    List (ChanNo × Nat) × Option Nat × Bool :=
  let chans := wins.filter fun x => !(s.chan x.1).force.boostLive
  let lims := chans.map fun x => (x.1, (s.chan x.1).lintel.toNat)
  let t := (wins.map fun x => x.2.d).sum
  let share := linEff s b
  if 1000 * share < t then
    let red := (wins.filter fun x => reducible s x.1 x.2).map fun x => (x.1, linClass s x.1, x.2)
    let x0 : LinRed := { lims := lims, e := ⟨((t : Int) - 1000 * share) * perMicrowatt, 1⟩, cls := none, done := false }
    let x := [3, 2, 1, 0].foldl (linClassStep red) x0
    (x.lims, x.cls, decide (0 < x.e.num))
  else if 16 * t ≤ 1000 * share * live s .lintel 0x044 0 4 then
    let rise := live s .lintel 0x044 8 16
    (lims.map fun x => (x.1, if x.2 < 0xFFFF then min (x.2 + rise) 0xFFFF else x.2), none, false)
  else (lims, none, false)

/-! ## The period boundary (R211, R213, R220, R499) -/

def State.modLinBay (s : State) (b : BayNo) (f : LintelBay → LintelBay) : State :=
  s.modLintel fun l => { l with bays := vmod l.bays b f }

/-- Results computed and not in effect are discarded. -/
def lintelDiscard (s : State) : State :=
  let s1 := s.each (allFin 512) fun g s => s.modChan g fun c => { c with lintelNew := none }
  s1.modLintel fun l =>
    { l with evalAt := none, doneAt := none, bays := l.bays.map fun x => { x with result := none } }

/-- Channels of a bay with a Lintel limit below 0xFFFF. -/
def linLimited (s : State) (b : BayNo) : Nat :=
  ((bayChans b).filter fun g => !(s.chan g).force.boostLive && (s.chan g).lintel != 0xFFFF).length

/-- The evaluation leaves a bay at the floor: its flag and the event of R219. (DEDUCED: log entry 60) -/
def lintelDoneBay (b : BayNo) (s : State) : State :=
  match s.lintel.bays[b].result with
  | some (_, true) => setEvt (s.modLinBay b fun x => { x with floorFlag := true }) .lintel 1
  | _ => s

/-- LIN_BAY_STAT takes what the evaluation found for a bay. (DEDUCED: log entry 60) -/
def lintelStat (x : LintelBay) : LintelBay :=
  match x.result with
  | some (cls, atFloor) => { x with cls := cls, atFloor := atFloor, result := none }
  | none => x

/-- The limits of a bay and its status take effect, with the event of R221. -/
def lintelApplyBay (b : BayNo) (s : State) : State :=
  if !bayUp s b then s
  else
    let before := linLimited s b
    let s1 := (s.modLinBay b lintelStat).each (bayChans b) fun g s =>
      match (s.chan g).lintelNew with
      | some lim => reLatch g (s.modChan g fun c => { c with lintel := lim, lintelNew := none })
      | none => s
    if before == 0 && linLimited s1 b != 0 then
      raise (setEvt (s1.modLinBay b fun x => { x with limitFlag := true }) .lintel 0) (baySid b 0x6)
    else s1

/-- The evaluation has completed at least one tick ago. -/
def lintelReady (s : State) : Bool :=
  match s.lintel.doneAt with
  | some t => after s t
  | none => false

/-- New limits take effect. -/
def lintelApply (s : State) : State :=
  lintelDiscard (s.each (allFin 16) lintelApplyBay)

/-- LINTEL_LIMITS_APPLY: the first frame boundary at least one tick after completion (R216). -/
def lintelLimitsApply (s : State) : State :=
  if pageUp s .lintel && onFrame s && lintelReady s then lintelApply s else s

def execLintelLimitsApply (s : State) : Ret := .next (lintelLimitsApply s)

/-- The rail readings of the window (R213). -/
def lintelRails (rails : Vector (BitVec 16 × BitVec 16) 16) (s : State) : State :=
  s.each (allFin 16) fun b s =>
    if s.power.rails.getLsbD b.val then
      s.modLinBay b fun x => { x with vfp := rails[b].1, vfn := rails[b].2 }
    else s

/-- T of a bay with every reducible channel at the floor, in µW. -/
def linFloorPower (s : State) (wins : List (ChanNo × LinWin)) : Nat :=
  (wins.map fun x =>
    if reducible s x.1 x.2 then (x.2.h.mul ⟨linFloorNa, perMicrowatt⟩).floor.toNat else x.2.d).sum

/-- A bay's evaluation begins with the values of the boundary. (DEDUCED: log entry 60) -/
def lintelBayEval (b : BayNo) (s0 : State) : State :=
  if !bayUp s0 b then
    (s0.each (bayChans b) fun g s => s.modChan g fun c => { c with power := 0 }).modLinBay b fun x =>
      { x with total := 0, floorPwr := 0 }
  else
    let s := s0.each (bayChans b) settleDue
    let r := s.lintel.bays[b]
    let wins := (bayChans b).map fun g => (g, linWin r.vfp.toNat r.vfn.toNat (s.chan g).meas.linBoxes)
    let t := (wins.map fun x => x.2.d).sum
    if r.skip = 0 then
      let s1 := s.each wins fun x s => s.modChan x.1 fun c => { c with power := x.2.d }
      let s2 := s1.modLinBay b fun x => { x with total := t, floorPwr := linFloorPower s wins }
      let (lims, cls, atFloor) := linEvaluate s b wins
      let s3 := s2.each lims fun x s => s.modChan x.1 fun c => { c with lintelNew := some (BitVec.ofNat 16 x.2) }
      s3.modLinBay b fun x =>
        { x with result := some ((cls.map (BitVec.ofNat 2)).getD x.cls, atFloor) }
    else if after s r.upAt then s.modLinBay b fun x => { x with skip := x.skip - 1 }
    else s

/-- An evaluation that has not completed by the next boundary is discarded and counted (R220). (DEDUCED: log entry 60)
-/
def lintelLate (s : State) : State :=
  if s.lintel.evalAt.isSome then
    setEvt ((lintelDiscard s).modLintel fun l => { l with late := l.late + 1 }) .lintel 3
  else s

/-- LINTEL_PERIOD: a period boundary. (DEDUCED: log entry 60) -/
def lintelPeriod (rails : Vector (BitVec 16 × BitVec 16) 16) (s : State) : State :=
  if pageUp s .lintel && onMult s 1280 && s.lintel.evalAt != some s.tick then
    let s1 := lintelRails rails (lintelLate (if lintelReady s then lintelApply s else s))
    if s1.lintel.skip = 0 then
      (s1.each (allFin 16) lintelBayEval).modLintel fun l =>
        { l with evalAt := some s.tick, doneAt := none, total := (l.bays.toList.map LintelBay.total).sum }
    else s1.modLintel fun l => { l with skip := if s.tick ≤ l.upAt then l.skip else l.skip - 1 }
  else s

def execLintelPeriod (rails : Vector (BitVec 16 × BitVec 16) 16) (s : State) : Ret := .next (lintelPeriod rails s)

/-- LINTEL_EVAL_DONE: the evaluation completes before the next boundary, with the event of R219. (DEDUCED: log entry
60) -/
def lintelEvalDone (s : State) : State :=
  match s.lintel.evalAt with
  | some t =>
    if pageUp s .lintel && after s t && !onMult s 1280 && s.lintel.doneAt.isNone then
      (s.each (allFin 16) lintelDoneBay).modLintel fun l => { l with doneAt := some s.tick }
    else s
  | none => s

def execLintelEvalDone (s : State) : Ret := .next (lintelEvalDone s)

/-! ## Power of PD3 and of a bay (R223, R499) -/

/-- PD3 is off: every Native channel's limit is held at 12,288. -/
def lintelOff (s : State) : State :=
  s.each (allFin 512) fun g s => s.modChan g fun c => { c with lintel := 12288, lintelNew := none }

/-- PD3 comes up, or Lintel is reset: no limit, and evaluation from the second boundary on. (DEDUCED: log entry 61) -/
def lintelOn (s : State) : State :=
  let s1 := s.each (allFin 512) fun g s => s.modChan g fun c => { c with
    lintel := 0xFFFF, lintelNew := none, power := 0 }
  s1.modLintel fun _ =>
    { Lintel.reset with skip := 1, upAt := s.tick }

/-- A bay's domain goes off: its power readings read 0. (DEDUCED: log entry 61) -/
def lintelBayOff (b : BayNo) (s : State) : State :=
  (s.each (bayChans b) fun g s => s.modChan g fun c => { c with power := 0, lintelNew := none }).modLinBay b fun x =>
    { x with total := 0, floorPwr := 0, result := none }

/-- A bay's domain comes up. (DEDUCED: log entry 61) -/
def lintelBayOn (b : BayNo) (s : State) : State :=
  (s.each (bayChans b) fun g s =>
    s.modChan g fun c => { c with
      lintel := if domUp s 3 then 0xFFFF else 12288, lintelNew := none }).modLinBay b fun x =>
      { x with skip := 1, upAt := s.tick, result := none }

end Sys2Proof.Machine
end

