-- ==== Sys2Proof/Machine/Programs.lean ====
section
/-! DEFINITION. Sweep lists, Codex playback and Louvre pulses (chapter 4). -/

namespace Sys2Proof.Machine

/-! ## What every program shares (R101 to R104) -/

/-- What a program task can change in a channel, as it stands. (DEDUCED: log entry 126) -/
def progMark (s : State) (g : ChanNo) : ProgMark :=
  let c := s.chan g
  let h := s.page (.channel g)
  { prog := c.prog, slew := c.slew, setptLim := c.force.setptLim, setpt := c.force.setpt, winV := c.winV, winI := c.winI
    evt := h.evt, raised := s.transom.raised.length, detected := s.mgmt.detected.length, msgs := s.out.msgs.length
    pend := s.host.msix[(⟨h.vec.toNat, h.vec.isLt⟩ : Fin 64)].pend }

/-- The state before the first start or advance of the present tick, and after the last one so far (R103). -/
def progSnapNow (s : State) (g : ChanNo) : Option (ProgMark × ProgMark) :=
  match (s.chan g).progSnap with
  | some (t, x) => if t = s.tick then some x else none
  | none => none

/-- A program task that a later one of its tick may discard (R103): what it can change is kept. (DEDUCED: log entry
126) -/
def progNoted (g : ChanNo) (f : State → State) (s : State) : State :=
  let before := match progSnapNow s g with | some x => x.1 | none => progMark s g
  let s1 := f s
  s1.modChan g fun c => { c with progSnap := some (s.tick, before, progMark s1 g) }

/-- A value that nothing has changed since the discarded task takes its old value. (DEDUCED: log entry 126) -/
def undoVal {α : Type} [DecidableEq α] (before after now : α) : α := if now = after then before else now

/-- The program as it was, with the trip latch as it now stands where something else has moved it. (DEDUCED: log entry
126) -/
def undoProg (before after now : Prog) : Prog :=
  if now.trips = after.trips && now.tripped = after.tripped then before
  else { before with tripped := now.tripped, tripBase := now.tripBase, tripTick := now.tripTick, trips := now.trips }

/-- The start or advance of this tick is discarded: what it changed, raised, set and reported is undone (R103).
(DESIGN CHOICE: log entry 2; DEDUCED: log entries 116, 126) -/
def progUndo (g : ChanNo) (s : State) : State :=
  match progSnapNow s g with
  | none => s
  | some (x, y) =>
    let v : Fin 64 := ⟨(s.page (.channel g)).vec.toNat, (s.page (.channel g)).vec.isLt⟩
    let s1 := s.modChan g fun c =>
      { c with
        progSnap := none, prog := undoProg x.prog y.prog c.prog, slew := x.slew
        winV := undoVal x.winV y.winV c.winV, winI := undoVal x.winI y.winI c.winI
        force := { c.force with setptLim := x.setptLim, setpt := x.setpt } }
    let s2 := s1.modPage (.channel g) fun h =>
      { h with evt := h.evt &&& ~~~(y.evt &&& ~~~x.evt), setBits := h.setBits &&& ~~~(y.evt &&& ~~~x.evt) }
    let s3 := s2.modTransom fun t => { t with raised := cutSegment x.raised y.raised t.raised }
    let s4 := s3.modMgmt fun m => { m with detected := cutSegment x.detected y.detected m.detected }
    let s5 := s4.modOut fun o => { o with msgs := cutSegment x.msgs y.msgs o.msgs }
    if y.pend && !x.pend then s5.modHost fun h => { h with msix := vmod h.msix v fun e => { e with
      pend := false } } else s5

/-- A task without an action for the live source (R102). -/
def progIgnored (g : ChanNo) (s : State) : State := setEvt s (.channel g) evProgIgnored

/-- The program reaches its end (R104). -/
def progEnd (g : ChanNo) (s : State) : State :=
  raise
    (setEvt
      (s.modProg g fun p => { p with
        running := false, done := true, dwellAt := none, pointAt := none, leadAt := none, trailAt := none })
      (.channel g) evProgDone)
    (chanSid g 3)

/-- The program stops on a fault (R112, R120). -/
def progFault (g : ChanNo) (s : State) : State :=
  setEvt
    (s.modProg g fun p => { p with running := false, fault := true, dwellAt := none, pointAt := none })
    (.channel g) evProgFault

/-- The program halts (R101): a Louvre presents its base level, the others hold their value. (DEDUCED: log entry 42)
-/
def progHalt (g : ChanNo) (s : State) : State :=
  refreshTarget g (s.modProg g fun p =>
    { p with running := false, dwellAt := none, pointAt := none, leadAt := none, trailAt := none, lvHigh := false })

/-! ## Sweep lists (R107 to R112) -/

/-- Ticks of a dwell (R107). -/
def dwellTicks (dunit : Nat) (e : BitVec 64) : Nat :=
  entryDwell e * (if dunit = 0 then 1 else if dunit = 1 then 80 else 80000)

/-- The index after `i` in the running order (R110). (DEDUCED: log entry 116) -/
def swpNext (s : State) (g : ChanNo) (i : Nat) : Nat :=
  if i = swpEnd s g then swpStart s g
  else if swpStart s g ≤ swpEnd s g then (i + 1) % 4096
  else (i + 4095) % 4096

/-- The fault-log entry of a parity error (R112, R422). -/
def parityDetect (g : ChanNo) (i : Nat) (cls : Nat) (s : State) : State := detect s (.channel g) i 0x20 1 cls

/-- A fetch of entry `i` finds a parity error that the re-read cures (R112). -/
def parityCount (g : ChanNo) (i : Nat) (parity : Parity) (s : State) : State :=
  match parity with
  | .ok | .lasting => s
  | .transient => parityDetect g i clsTransient s

/-- Entry `i` with content `e` becomes current (R108), and the entry after it is fetched (R111); `ahead` is what that
fetch finds. (DESIGN CHOICE: log entry 45) -/
def swpCurrent (g : ChanNo) (i : Nat) (e : BitVec 64) (ahead : Parity) (s0 : State) : State :=
  let n := swpNext s0 g i
  let s := parityCount g n ahead s0
  let s1 := s.modProg g fun p =>
    { p with
      index := BitVec.ofNat 12 i, cur := e, swpVal := entrySetpt e, swpStarted := true
      dwellAt := some (s.tick + dwellTicks (swpDunit s g) e), next := some (n, listEntry s g n, ahead == .lasting) }
  let s2 := raise s1 (chanSid g 0)
  let s3 := if entryMark e then raise s2 (chanSid g 1) else s2
  refreshTarget g s3

/-- The content of entry `i` as the fetch ahead found it (R111). (DEDUCED: log entry 116) -/
def swpFetched (s : State) (g : ChanNo) (i : Nat) : BitVec 64 :=
  match (s.chan g).prog.next with
  | some (j, e, _) => if j = i then e else listEntry s g i
  | none => listEntry s g i

/-- The fetch ahead of entry `i` found a parity error that persisted (R112). -/
def swpFailed (s : State) (g : ChanNo) (i : Nat) : Bool :=
  match (s.chan g).prog.next with
  | some (j, _, bad) => j == i && bad
  | none => false

/-- Entry `i`, fetched ahead, is to become current; one that failed stops the program at this tick (R112). -/
def swpTake (g : ChanNo) (i : Nat) (ahead : Parity) (s : State) : State :=
  if swpFailed s g i then parityDetect g i clsLasting (progFault g s)
  else swpCurrent g i (swpFetched s g i) ahead s

/-- The current entry ends (R110). -/
def swpEndEntry (g : ChanNo) (ahead : Parity) (s : State) : State :=
  let i := (s.chan g).prog.index.toNat
  let n := swpNext s g i
  if i = swpEnd s g then
    let s1 := s.modProg g fun p => { p with pass := satInc p.pass, dwellAt := none }
    if swpRepeat s g ≠ 0 ∧ swpRepeat s g ≤ (s1.chan g).prog.pass.toNat then progEnd g s1
    else swpTake g n ahead s1
  else swpTake g n ahead s

/-- A sweep starts: a persistent parity error on the entry at START stops it with the limiter's target as its value
(R112). -/
def swpBegin (g : ChanNo) (parity ahead : Parity) (s : State) : State :=
  let i := swpStart s g
  let s1 := s.modProg g fun p => { p with pass := 0, index := BitVec.ofNat 12 i }
  match parity with
  | .lasting =>
    parityDetect g i clsLasting
      (progFault g (s1.modProg g fun p => { p with swpStarted := true, swpVal := (s.chan g).slew.target }))
  | .ok | .transient => swpCurrent g i (listEntry s g i) ahead (parityCount g i parity s1)

/-- DWELL_END: the dwell of the current entry has run (R108, R109). -/
def dwellEnd (g : ChanNo) (ahead : Parity) (s : State) : State :=
  let p := (s.chan g).prog
  if p.running && srcSel s g == 1 && p.dwellAt == some s.tick then
    let s1 := raise (s.modProg g fun p => { p with dwellAt := none }) (chanSid g 2)
    if swpAdv s g ≠ 1 && !entryWait p.cur then
      swpEndEntry g ahead (s1.modProg g fun p => { p with dwellEnded := some s.tick })
    else s1
  else s

/-- (DESIGN CHOICE: log entry 3) -/
def execDwellEnd (g : ChanNo) (ahead : Parity) (s : State) : Ret := .next (dwellEnd g ahead s)

/-! ## Codex playback (R113 to R120) -/

/-- Points of the cache window (R117). -/
def cdxWindowSize : Nat := 4096

/-- The point after `i` in the running order (R115, R116). -/
def cdxNext (s : State) (g : ChanNo) (i : Nat) : Nat :=
  if i + 1 < cdxLen s g then i + 1 else cdxLoopEff s g

/-- `n` points after `i` in the running order. -/
def cdxAhead (s : State) (g : ChanNo) (i n : Nat) : List Nat :=
  match n with
  | 0 => []
  | k + 1 => cdxNext s g i :: cdxAhead s g (cdxNext s g i) k

/-- The window from its first place of point `i` on. -/
def cdxDrop (i : Nat) (w : CdxWindow) : CdxWindow := w.dropWhile fun x => x.1 != i

/-- What a table that was changed after its prime may play for point `i` in place of the word `w` that the window
holds (R119): the point as it was primed, and the point as DRAM holds it now, where they differ from `w`. (DESIGN
CHOICE: log entry 44) -/
def cdxMix (s : State) (g : ChanNo) (i : Nat) (w : Word) : List Word :=
  let p := (s.chan g).prog
  if p.ready then
    (((p.primed.find? fun x => x.1 == i).bind Prod.snd).toList ++ (cdxRead s g i).toList).filter fun v => v != w
  else []

/-- The word played for point `i`: a free choice among old and new ones while they differ (R119). (DESIGN CHOICE: log
entry 44) -/
def cdxWord (s : State) (g : ChanNo) (i : Nat) (w : Word) : Word :=
  let m := cdxMix s g i w
  ((w :: m)[(freeNow s).toNat % (m.length + 1)]?).getD w

/-- Point `i` becomes current: from the window, as a miss (R118), or as poison (R120). `first` says that no good point
has been played. (DEDUCED: log entry 43; DESIGN CHOICE: log entry 44) -/
def cdxPlay (g : ChanNo) (i : Nat) (first : Bool) (s0 : State) : State :=
  let p := (s0.chan g).prog
  match cdxDrop i p.window with
  | (_, some w0) :: rest =>
    let w := cdxWord s0 g i w0
    let s := if (cdxMix s0 g i w0).isEmpty then s0 else takeFree s0
    let s1 := s.modProg g fun p =>
      { p with point := i, cdxVal := w.extractLsb' 0 20, window := rest, pointAt := some (s.tick + cdxInt s g) }
    let s2 := if w.getLsbD 31 then raise s1 (chanSid g 4) else s1
    refreshTarget g s2
  | (_, none) :: rest =>
    progFault g (s0.modProg g fun p =>
      { p with window := rest, cdxVal := if first then (s0.chan g).slew.target else p.cdxVal })
  | [] =>
    setEvt
      (s0.modProg g fun p =>
        { p with point := i, misses := p.misses + 1, pointAt := some (s0.tick + cdxInt s0 g) })
      (.channel g) evCodexMiss

/-- A Codex program starts (R115, R118). A poison that priming found stops it at point 0, with the value that the
limiter's target held (R120). (DEDUCED: log entry 43) -/
def cdxBegin (g : ChanNo) (s0 : State) : State :=
  let p := (s0.chan g).prog
  let s := if p.priming then s0 else dropReturned (.codex g) s0
  let v := BitVec.ofNat 20 (present s g)
  let s1 := s.modProg g fun p' =>
    { p' with
      cdxStarted := true, cdxVal := v, passes := 0, point := 0
      window := if p.ready then p.primed else []
      priming := p.priming || !p.ready }
  if p.ready && p.primed.any fun x => x.2.isNone then
    progFault g (s1.modProg g fun p' => { p' with cdxVal := (s.chan g).slew.target })
  else cdxPlay g 0 true s1

/-- CODEX_POINT: the next point becomes current, or the program ends (R115). -/
def codexPoint (g : ChanNo) (s : State) : State :=
  let p := (s.chan g).prog
  if p.running && srcSel s g == 2 && p.pointAt == some s.tick then
    if p.point + 1 < cdxLen s g then cdxPlay g (p.point + 1) false s
    else
      let s1 := s.modProg g fun p => { p with passes := p.passes + 1, pointAt := none }
      if cdxRepeat s g ≠ 0 ∧ cdxRepeat s g ≤ p.passes + 1 then progEnd g s1
      else cdxPlay g (cdxLoopEff s g) false s1
  else s

def execCodexPoint (g : ChanNo) (s : State) : Ret := .next (codexPoint g s)

/-- The lines in which points lie, each once, in the order of the points. -/
def cdxLines (s : State) (g : ChanNo) (l : List Nat) : List Nat :=
  (l.map fun i => (cdxBase s g + 4 * i) / 64).eraseDups

/-- A point of the lines that have been read, `none` for poison (R114). -/
def cdxPick (lines : List Nat) (bytes : List (Option Byte)) (a : Nat) : Option Word :=
  let b := (bytes.drop (64 * lines.idxOf (a / 64) + a % 64)).take 4
  if b.all Option.isSome then some (BitVec.ofNat 32 (leNat (b.map fun x => x.getD 0))) else none

/-- Points given by their indices are read through P1; none while the reads must wait. -/
def cdxLoad (g : ChanNo) (l : List Nat) (s : State) : Option (CdxWindow × State) :=
  let lines := cdxLines s g l
  (readLines 1 (.codex g) 0 [] lines s).map fun x =>
    (l.map fun i => (i, cdxPick lines x.1 (cdxBase s g + 4 * i)), x.2)

/-- CODEX_FETCH_DONE: a refill brings the next points in the running order (R117). (DEDUCED: log entry 43) -/
def codexFetchDone (g : ChanNo) (points : Nat) (s : State) : State :=
  let p := (s.chan g).prog
  if p.running && srcSel s g == 2 then
    let lastIdx := ((p.window.getLast?).map Prod.fst).getD p.point
    match cdxLoad g (cdxAhead s g lastIdx (min points (cdxWindowSize - p.window.length))) s with
    | some (w, s1) => s1.modProg g fun p => { p with window := p.window ++ w }
    | none => memWake s
  else s

def execCodexFetchDone (g : ChanNo) (points : Nat) (s : State) : Ret := .next (codexFetchDone g points s)

/-- The prime task (R101, R102, R117). (DEDUCED: log entry 43) -/
def progPrime (g : ChanNo) (s : State) : State :=
  if srcSel s g ≠ 2 ∨ (s.chan g).prog.running then progIgnored g s
  else memWake (dropReturned (.codex g) (s.modProg g fun p => { p with priming := true }))

/-- The value of a source that has not been started has changed: the target follows it (R99). (DEDUCED: log entry 125)
-/
def unstartedTarget (g : ChanNo) (s : State) : State :=
  let p := (s.chan g).prog
  if (srcSel s g == 1 && !p.swpStarted) || (srcSel s g == 2 && !p.cdxStarted) then refreshTarget g s else s

/-- PRIME_DONE: the first points lie in the window (R117). (DEDUCED: log entries 43, 125) -/
def primeDone (g : ChanNo) (s : State) : State :=
  if (s.chan g).prog.priming then
    match cdxLoad g (List.range (min (cdxLen s g) cdxWindowSize)) s with
    | some (w, s1) =>
      unstartedTarget g (s1.modProg g fun p =>
        { p with
          primed := w, ready := true, priming := false
          window := if p.running && p.window.isEmpty then w else p.window })
    | none => memWake s
  else s

def execPrimeDone (g : ChanNo) (s : State) : Ret := .next (primeDone g s)

/-! ## Louvre pulses (R121, R122, R125) -/

/-- A leading edge: clears first, then the pulse level, its source and blanking. -/
def lvLead (g : ChanNo) (s : State) : State :=
  let s1 := if winLvClr s g .v then clearWin g .v s else s
  let s2 := if winLvClr s g .i then clearWin g .i s1 else s1
  let s3 := if lvAutoClr s g then louvreTripClear g s2 else s2
  let last := lvCount s g != 0 && decide (lvCount s g ≤ (s.chan g).prog.pulses.toNat + 1)
  let s4 := s3.modProg g fun p =>
    { p with
      lvHigh := true, trailAt := some (s.tick + lvWidth s g)
      leadAt := if last then none else some (s.tick + lvPeriodEff s g) }
  let s5 := raise s4 (chanSid g 5)
  let s6 := if onLead s g then blankBoth g (blankTicks s g) s5 else s5
  refreshTarget g s6

/-- A trailing edge, the last of which ends the program. -/
def lvTrail (g : ChanNo) (s : State) : State :=
  let s1 := s.modProg g fun p => { p with lvHigh := false, trailAt := none, pulses := p.pulses + 1 }
  let s2 := raise s1 (chanSid g 6)
  let s3 := if onTrail s g then blankBoth g (blankTicks s g) s2 else s2
  let s4 := refreshTarget g s3
  if lvCount s g ≠ 0 ∧ lvCount s g ≤ (s4.chan g).prog.pulses.toNat then progEnd g s4 else s4

def leadingEdge (g : ChanNo) (s : State) : State :=
  if (s.chan g).prog.running && (s.chan g).prog.leadAt == some s.tick then lvLead g s else s

def trailingEdge (g : ChanNo) (s : State) : State :=
  if (s.chan g).prog.running && (s.chan g).prog.trailAt == some s.tick then lvTrail g s else s

def execLeadingEdge (g : ChanNo) (s : State) : Ret := .next (leadingEdge g s)

def execTrailingEdge (g : ChanNo) (s : State) : Ret := .next (trailingEdge g s)

/-- A Louvre starts: with DELAY 0 the first leading edge falls on the start tick. -/
def lvBegin (g : ChanNo) (s : State) : State :=
  let s1 := refreshTarget g (s.modProg g fun p =>
    { p with pulses := 0, lvHigh := false, trailAt := none, leadAt := some (s.tick + lvDelay s g) })
  leadingEdge g s1

/-! ## Program control (R101 to R103) -/

/-- A start that is not discarded begins the program of the live source. -/
def progBegin (g : ChanNo) (parity ahead : Parity) (s : State) : State :=
  let s1 := s.modProg g fun p =>
    { p with
      running := true, done := false, fault := false, startTick := some s.tick, dwellAt := none, pointAt := none
      leadAt := none, trailAt := none, dwellEnded := none }
  match srcSel s g with
  | 1 => swpBegin g parity ahead s1
  | 2 => cdxBegin g s1
  | _ => lvBegin g s1

/-- The start task: ignored on the register source (R102), discarded in the tick of a stop, and overriding an
advance of its tick (R103). -/
def progStart (g : ChanNo) (parity ahead : Parity) (s : State) : State :=
  if srcSel s g = 0 then progIgnored g s
  else if (s.chan g).prog.stopTick = some s.tick then s
  else progNoted g (progBegin g parity ahead) (progUndo g s)

/-- The stop task: a start of the same tick is discarded. -/
def progStop (g : ChanNo) (s : State) : State :=
  let s1 := if (s.chan g).prog.startTick = some s.tick then progUndo g s else s
  let s2 := s1.modProg g fun p => { p with stopTick := some s.tick }
  if (s2.chan g).prog.running then progHalt g s2 else s2

/-- A dwell that runs out in the tick of an advance raises its source, as timebase logic does (R109, R280). -/
def dwellRun (g : ChanNo) (s : State) : State :=
  if (s.chan g).prog.dwellAt = some s.tick then withVia .write (fun s => raise s (chanSid g 2)) s else s

/-- The advance task (R101, R102, R108, R109). (DEDUCED: log entry 116) -/
def progAdvance (g : ChanNo) (ahead : Parity) (s : State) : State :=
  let p := (s.chan g).prog
  if srcSel s g ≠ 1 then
    if p.startTick = some s.tick then s else progNoted g (progIgnored g) s
  else if !p.running || p.startTick == some s.tick || p.dwellEnded == some s.tick then s
  else if swpAdv s g = 0 && !entryWait p.cur then s
  else progNoted g (fun s => swpEndEntry g ahead (dwellRun g s)) s

def execProgStart (g : ChanNo) (via : Via) (parity ahead : Parity) (s : State) : Ret :=
  .next (request (.channel g) 0x104 via (progStart g parity ahead) s)

def execProgStop (g : ChanNo) (via : Via) (s : State) : Ret :=
  .next (request (.channel g) 0x104 via (progStop g) s)

def execProgAdvance (g : ChanNo) (via : Via) (ahead : Parity) (s : State) : Ret :=
  .next (request (.channel g) 0x104 via (progAdvance g ahead) s)

def execProgPrime (g : ChanNo) (via : Via) (s : State) : Ret :=
  .next (request (.channel g) 0x104 via (progPrime g) s)

/-! ## List memory access (R58, R106) -/

/-- An entry written at BAY_LIST_PTR, which then advances when AUTOINC is 1. Reserved bits read 0 (R4, R105). -/
def listWrite (b : BayNo) (e : BitVec 64) (s : State) : State :=
  let chan : Fin 32 := ⟨field (s.bay b).listPtr 12 5 % 32, Nat.mod_lt _ (by decide)⟩
  unstartedTarget (chanOf b chan) (s.modBay b fun x =>
    let ptr := x.listPtr
    let entry := field ptr 0 12
    { x with
      lists := sparseSet (fun _ => entryReset) x.lists (4096 * field ptr 12 5 + entry) (e &&& 0x00FFFFFF030FFFFF)
      listPtr := if ptr.getLsbD 31 then setField ptr 0 12 ((entry + 1) % 4096) else ptr })

/-- The entry at BAY_LIST_PTR. -/
def listRead (s : State) (b : BayNo) : BitVec 64 :=
  let ptr := (s.bay b).listPtr
  sparseGet (fun _ => entryReset) (s.bay b).lists (4096 * field ptr 12 5 + field ptr 0 12)

/-- LIST_DATA_WRITE: both words of BAY_LIST_DATA are written at one instant (R57, R58). -/
def execListDataWrite (b : BayNo) (entry : BitVec 64) (s : State) : Ret :=
  .next (request (.bay b) 0x088 .write (fun s => listWrite b entry (dropHeld (.bay b) 0x088 s)) s)

end Sys2Proof.Machine
end

