-- ==== Sys2Proof/Machine/Stacks.lean ====
section
/-! DEFINITION. Stacks beside its requests and reads: scrubbing, refresh, self-refresh, initialisation, the training
cache, retraining, fencing and rate changes (chapter 14, R337 to R377). -/

namespace Sys2Proof.Machine

/-! ## Parts of the state and live configuration -/

def srefEn (s : State) : Bool := liveBit s .stk 0x040 2
def retrainTicks (s : State) : Nat := 160000 * live s .stk 0x048 0 16

/-! ## Issue (R358 to R362) -/

/-- REQUEST_ISSUE: a subchannel that can issue takes its next request; `busy` lists the banks whose timing does not
permit it. -/
def execRequestIssue (sub : Fin 16) (busy : List Nat) (s : State) : Ret :=
  .next (bar2Serve (requestIssue sub busy (sendHeaders s)))

/-- (DESIGN CHOICE: log entry 4; DEDUCED: log entry 13) -/
def execReadReturn (sub : Fin 16) (first : LineErr) (again : List LineErr) (s : State) : Ret :=
  if wfRead first again then .next (bar2Serve (readReturn sub first again s)) else .fault .illFormed

/-- What waits for Stacks is served: requests at the ports, and BAR2. -/
def stkServe (s : State) : State := bar2Serve (letIn s)

/-! ## Scrubbing (R354) -/

/-- The position after a line, with the pass counted at the end. -/
def scrubNext (k : Stacks) : Stacks :=
  if k.cap ≤ k.scrubPos + 64 then { k with scrubPos := 0, scrubPass := k.scrubPass + 1 }
  else { k with scrubPos := k.scrubPos + 64 }

/-- Lines of a fenced subchannel are skipped: at most `n` of them. -/
def scrubSkip (n : Nat) (s : State) : State :=
  match n with
  | 0 => s
  | k + 1 =>
    match lineAns s (s.stk.scrubPos / 64) with
    | .refused => scrubSkip k (s.modStacks scrubNext)
    | .off | .dram _ => s

/-- The present tick is one of the `r` ticks of its millisecond at which the scrubber reads. (DESIGN CHOICE: log entry
90) -/
def scrubDue (s : State) (r : Nat) : Bool :=
  let t := s.time.toNat % 160000
  let k := ceilDiv (t * r) 160000
  decide (k < r) && decide (k * 160000 / r = t)

/-- SCRUB_READ: the scrubber reads its next line through P4, unless an earlier one still waits there. (DESIGN CHOICE:
log entry 90) -/
def scrubRead (s : State) : State :=
  let r := live s .stk 0x050 0 16
  if pageUp s .stk && memServes s && scrubDue s r && s.stk.scrubTick != some s.tick &&
      !(s.stk.waiting.any fun x => x.1 == 4) then
    let s1 := scrubSkip 16 (s.modStacks fun k => { k with scrubTick := some s.tick })
    let line := s1.stk.scrubPos / 64
    match lineAns s1 line with
    | .off | .refused => s1
    | .dram _ => (requestEnter 4 (readReq .scrub line) s1).modStacks scrubNext
  else s

def execScrubRead (s : State) : Ret := .next (scrubRead s)

def scrubRestart (s : State) : State := s.modStacks fun k => { k with scrubPos := 0 }

def execScrubRestart (s : State) : Ret := .next (request .stk 0x054 .write scrubRestart s)

/-! ## Refresh, temperature and self-refresh (R363 to R365) -/

/-- Ticks between refreshes: the interval of JESD79-5, halved above 85 °C. (DESIGN CHOICE: log entry 90) -/
def refreshEvery (c : Sub) : Nat := max 1 (if 340 < c.temp.toInt then Config.refreshTicks / 2 else Config.refreshTicks)

/-- REFRESH: every rank of a READY subchannel is refreshed, at each interval. (DESIGN CHOICE: log entry 90) -/
def refresh (i : Fin 16) (s : State) : State :=
  let c := s.sub i
  if pageUp s .stk && decide (c.state = .ready) && decide (c.refreshFrom < s.tick) &&
      (s.tick - c.refreshFrom) % refreshEvery c == 0 then
    s.modSub i fun c => { c with refreshes := c.refreshes + 1, refreshFrom := s.tick }
  else s

def execRefresh (sub : Fin 16) (s : State) : Ret := .next (refresh sub s)

/-- The two subchannels of a channel. -/
def subsOf (c : Fin 8) : List (Fin 16) := [⟨2 * c.val, by omega⟩, ⟨2 * c.val + 1, by omega⟩]

/-- Ticks between readings of a sensor. -/
def thermalEvery : Nat := 2560000

/-- THERMAL_READ: a DIMM's sensor is read every 16 ms, in quarters of a degree; above 85 °C sets HOT. (DESIGN CHOICE:
log entry 90) -/
def thermalRead (c : Fin 8) (quarters : BitVec 12) (s : State) : State :=
  let x := s.sub ⟨2 * c.val, by omega⟩
  if pageUp s .stk && s.stk.channels.contains c && (!x.tempValid || (s.tick - x.tempFrom) % thermalEvery == 0) then
    let s1 := s.each (subsOf c) fun i s =>
      s.modSub i fun y =>
        { y with temp := quarters, tempValid := true, tempFrom := if y.tempValid then y.tempFrom else s.tick }
    if 340 < quarters.toInt then setEvt s1 .stk 11 else s1
  else s

def execThermalRead (chan : Fin 8) (quarters : BitVec 12) (s : State) : Ret := .next (thermalRead chan quarters s)

/-- Subchannels in one state take another. -/
def subsTo (old new : SubState) (s : State) : State :=
  s.modStacks fun k => { k with subs := k.subs.map fun c => if c.state = old then { c with state := new } else c }

/-- SREF_ENTER: the conditions of R364 have held for STK_SREF_IDLE. (DEDUCED: log entry 93) -/
def srefEnter (s : State) : State :=
  let k := s.stk
  if pageUp s .stk && k.initDone && !k.sref && !k.rateBusy && srefEn s && !anyRecording s &&
      decide (k.idleFrom + 160 * live s .stk 0x044 0 20 ≤ s.tick) then
    (subsTo .ready .sref s).modStacks fun k => { k with sref := true, srefExit := false, srefCnt := k.srefCnt + 1 }
  else s

def execSrefEnter (s : State) : Ret := .next (srefEnter s)

/-- SREF_EXIT: a request or an arm starts the exit. -/
def execSrefExit (s : State) : Ret := .next (if pageUp s .stk then memWake s else s)

/-! ## Fencing (R373, R374) -/

/-- A queue is emptied: the reads in it and under way return poison, its writes are discarded. (DESIGN CHOICE: log
entry 87) -/
def emptyQueue (i : Fin 16) (s : State) : State :=
  let l := (s.sub i).queue ++ (s.sub i).reads.map Prod.fst
  let s1 := s.modSub i fun c => { c with queue := [], reads := [], inorder := [] }
  let s2 := s1.modStacks fun k =>
    { k with waiting := k.waiting.filter fun x => !(x.2.2 && decide (subOf k x.2.1.line = some i)) }
  s2.each (l.filter fun x => !x.write && !x.fetch) fun x s => giveLine x.requester x.line poisonView s

/-- The writes that a fence discards are counted, and end the folios that they belong to. (DESIGN CHOICE: log entry
87) -/
def discardWrites (q : List QReq) (s : State) : State :=
  s.each (q.filter fun x => x.write) fun x s => fencedWrite x.requester (countOor s)

/-- A subchannel is fenced; the log takes an entry unless firmware fenced it. (DESIGN CHOICE: log entry 87) -/
def fenceSub (byFirmware : Bool) (i : Fin 16) (s : State) : State :=
  match (s.sub i).state with
  | .fenced | .absent => s
  | _ =>
    let q := (s.sub i).queue
    let s1 := discardWrites q (emptyQueue i s)
    let s2 := (s1.modSub i fun c => { c with
      state := .fenced, pauseUntil := 0, deferred := false, retryAt := [] }).modStacks
      fun k => { k with fence := k.fence ||| ((1 : BitVec 16) <<< i.val) }
    let s3 := setEvt s2 .stk 1
    arcPeakFell (stkServe (if byFirmware then s3 else detect s3 .stk i.val 0x66 0 clsLasting))

/-! ## Initialisation and training (R339, R366 to R368) -/

/-- The training-cache area. -/
def tcBase (s : State) : Nat := live s .stk 0x06C 17 15 * 0x20000

/-- The SPD identity of a channel's DIMM. -/
def spdId (k : Stacks) (c : Fin 8) : Nat := ((k.dimms[c]).map fun d => d.identity.toNat).getD 0

/-- The channel of a subchannel. -/
def chanOfSub (i : Fin 16) : Fin 8 := ⟨i.val / 2, by omega⟩

/-- The cache is valid for a subchannel (R368). (DESIGN CHOICE: log entry 88) -/
def cacheValid (s : State) (i : Fin 16) : Bool :=
  let a := tcBase s
  let f := s.flash
  flashNat f a 4 == 0x00210001 && flashNat f (a + 0x1FF00) 4 == 0x5AA50001 &&
  flashNat f (a + 0x10100) 4 == (crc32 (flashBytes f a 0x10100)).toNat && flashNat f (a + 8) 8 == Config.uid.toNat &&
  flashNat f (a + 4) 4 == s.stk.liveRate.toNat &&
  flashNat f (a + 0x10 + 8 * (i.val / 2)) 6 == spdId s.stk (chanOfSub i)

/-- The subchannel has been set up: it restores from the cache, or trains fully. (DESIGN CHOICE: log entry 88) -/
def startTraining (i : Fin 16) (s : State) : State :=
  let st : SubState := if cacheValid s i then .restore else .train
  s.modSub i fun c => { c with state := st, restored := false }

/-- A subchannel of a new map begins; while VDDQ is out of range it waits in INIT (R443). -/
def startSub (i : Fin 16) (s : State) : State :=
  let s1 := s.modSub i fun c => { c with state := .init, restored := false }
  if s1.power.vddq then startTraining i s1 else s1

/-- Subchannels of the map. (DESIGN CHOICE: log entry 87) -/
def mapSubs (k : Stacks) : List (Fin 16) := k.channels.flatMap subsOf

/-- A subchannel under a newly chosen set: those already trained or in training are left as they are. (DESIGN CHOICE:
log entry 87; DEDUCED: log entry 92) -/
def joinMap (i : Fin 16) (s : State) : State :=
  if (mapSubs s.stk).contains i then
    match (s.sub i).state with
    | .absent | .fenced => startSub i s
    | .init | .train | .restore | .ready | .sref | .rate => s
  else s.modSub i fun c => { c with state := .absent, deferred := false, retryAt := [] }

/-- The set is chosen and the map is built (R367 step 2). (DESIGN CHOICE: log entry 88) -/
def chooseMap (s : State) : State :=
  let xor := Vector.ofFn fun i : Fin 5 => liveWord s .stk (0x0A0 + 4 * i.val)
  (s.modStacks fun k => buildMap k xor).each (allFin 16) joinMap

/-- Training of the map has ended: zeroing runs (R355), at once where nothing is mapped. (DESIGN CHOICE: log entry 88)
-/
def trainedIf (s : State) : State :=
  if s.stk.initRunning && (mapSubs s.stk).all (fun i => (s.sub i).state == .ready || (s.sub i).state == .fenced) then
    s.modStacks fun k => { k with zeroing := true }
  else s

/-- A subchannel as an initialisation finds it: its counters stay. -/
def Sub.begin (c : Sub) : Sub :=
  { c with
    state := .absent, pauseUntil := 0, deferred := false, restored := false, attempt := 0, retryAt := [], queue := []
    reads := [], dirWrite := false, burst := 0, inorder := [], tempValid := false }

/-- Lines that the Codex of a channel has asked for: those of a priming, and those of the refill that a free value may
have under way. (DESIGN CHOICE: log entry 87) -/
def codexAsked (s : State) (g : ChanNo) : List Nat :=
  let p := (s.chan g).prog
  let prime := if p.priming then List.range (min (cdxLen s g) cdxWindowSize) else []
  let room := if p.running && srcSel s g == 2 && (freeNow s).getLsbD 0 then cdxWindowSize - p.window.length else 0
  cdxLines s g (prime ++ cdxAhead s g (((p.window.getLast?).map Prod.fst).getD p.point) room)

/-- Reads of the other blocks that an initialisation finds under way return poison (R367). (DESIGN CHOICE: log entry
87) -/
def poisonAsked (s : State) : State :=
  let s1 := s.each (allFin 512) fun g s =>
    if (s.chan g).prog.priming || (s.chan g).prog.running then
      (takeFree s).each (codexAsked s g) fun l s => giveLine (.codex g) l poisonView s
    else s
  match s.archive.tagBusy with
  | some line => giveLine .tagRead line poisonView s1
  | none => s1

/-- An initialisation begins (R367): queues are emptied, contents are lost, and the SPD hubs are read. (DESIGN CHOICE:
log entries 9, 87) -/
def stkInit (dimms : Vector (Option Dimm) 8) (s : State) : State :=
  let s1 := poisonAsked (s.each (allFin 16) emptyQueue)
  let s2 := s1.modStacks fun k =>
    { k with
      dimms := dimms, subs := k.subs.map Sub.begin, initDone := false, initRunning := true, zeroing := false
      sref := false, srefExit := false, rateBusy := false, tcUsed := false, wantRate := none
      liveRate := BitVec.ofNat 2 (live s .stk 0x040 0 2), mem := [], poison := [], tags := [] }
  trainedIf (chooseMap s2)

/-- REINIT: STK_CTL.REINIT, or the initialisation that PD2 coming up began, reads the fitted DIMMs. (DESIGN CHOICE:
log entry 88) -/
def execReinit (dimms : Vector (Option Dimm) 8) (s : State) : Ret := .next (request .stk 0x054 .write (stkInit dimms) s)

/-- DRAM contents under a rebuilt map during a rate change: each line keeps its subchannel and its M (R375). (DEDUCED:
log entry 92) -/
def remapLine (old new : Stacks) (line : Nat) : Option Nat :=
  match subOf old line with
  | some i =>
    if new.subs[i].state = .fenced then none
    else ((mapSubs new).findIdx? fun j => j == i).map fun n => lineM old line * nSub new + n
  | none => none

/-- Bytes, poison marks and tags in their new places. (DESIGN CHOICE: log entry 9; DEDUCED: log entry 92) -/
def remapMem (old new : Stacks) : Stacks :=
  let mem := old.mem.foldl (fun m x =>
    match remapLine old new (x.1 / 64) with
    | some l => sparseSet (fun _ => 0) m (64 * l + x.1 % 64) x.2
    | none => m) []
  let poison := old.poison.foldl (fun m b =>
    match remapLine old new (b / 2) with
    | some l => setMember m (2 * l + b % 2) true
    | none => m) []
  let tags := old.tags.foldl (fun m x =>
    match remapLine old new x.1 with
    | some l => sparseSet (fun _ => BitVec.allOnes 56) m l x.2
    | none => m) []
  { new with mem := mem, poison := poison, tags := tags }

/-- A subchannel's full training has failed: it is fenced, and the set is chosen anew (R367 step 5). -/
def trainFail (i : Fin 16) (s : State) : State :=
  let s1 := fenceSub false i s
  let old := s1.stk
  let s2 := chooseMap s1
  if s.stk.rateBusy then s2.modStacks fun k => remapMem old k else s2

/-- A subchannel has its settings and serves. -/
def subReady (i : Fin 16) (restored : Bool) (s : State) : State :=
  (s.modSub i fun c =>
    { c with
      state := .ready, restored := restored, retrainAt := s.tick + retrainTicks s,
      refreshFrom := s.tick }).modStacks fun k =>
      { k with tcUsed := k.tcUsed || restored }

/-- TRAINING_DONE: a restore or a full training ends. (DESIGN CHOICE: log entry 88) -/
def trainingDone (i : Fin 16) (passed : Bool) (s : State) : State :=
  if !pageUp s .stk then s
  else
    match (s.sub i).state with
    | .restore =>
      if passed then trainedIf (subReady i true s)
      else s.modSub i fun c => { c with state := .train, restored := false }
    | .train => trainedIf (if passed then subReady i false s else trainFail i s)
    | .rate =>
      if passed then subReady i (s.sub i).restored s
      else if (s.sub i).restored then s.modSub i fun c => { c with restored := false }
      else trainFail i s
    | .absent | .init | .ready | .sref | .fenced => s

def execTrainingDone (sub : Fin 16) (passed : Bool) (s : State) : Ret := .next (trainingDone sub passed s)

/-- ZEROING_DONE: every mapped line holds zero data and the all-ones tag (R355). -/
def zeroingDone (s : State) : State :=
  if pageUp s .stk && s.stk.zeroing then
    stkServe (arcRecheck (setEvt
      (idleNow (s.modStacks fun k =>
        { k with zeroing := false, initRunning := false, initDone := true, mem := [], poison := [], tags := [] }))
      .stk 0))
  else s

def execZeroingDone (s : State) : Ret := .next (zeroingDone s)

/-- VDDQ is in range: initialisation steps that drive the DIMMs go on (R443). -/
def stkVddqIn (s : State) : State :=
  if pageUp s .stk then
    s.each (allFin 16) fun i s => if (s.sub i).state = .init then startTraining i s else s
  else s

/-- STK_FENCE written (R373, R374). (DESIGN CHOICE: log entry 87) -/
def stkFence (mask : BitVec 16) (s : State) : State :=
  let s1 := s.modStacks fun k => { k with fence := mask }
  trainedIf (s1.each ((allFin 16).filter fun i => mask.getLsbD i.val) (fenceSub true))

def execFence (mask : BitVec 16) (s : State) : Ret := .next (request .stk 0x068 .write (stkFence mask) s)

/-! ## Retraining (R371, R372) -/

/-- The longest pause of a retraining: 4,096 DRAM clock cycles at the live rate, in whole ticks. -/
def pauseMax (s : State) : Nat := if s.stk.liveRate = 0 then 273 else if s.stk.liveRate = 1 then 234 else 204

/-- The subchannel stops issuing for the pause of a retraining. (DESIGN CHOICE: log entry 88) -/
def retrainPause (i : Fin 16) (s : State) : State :=
  (takeFree s).modSub i fun c => { c with pauseUntil := s.tick + (freeNow s).toNat % (pauseMax s + 1) }

/-- A retraining that succeeded, or that found no working setting. -/
def retrainOp (i : Fin 16) (found : Bool) (s : State) : State :=
  let s1 := (retrainPause i s).modSub i fun c => { c with retrainAt := s.tick + retrainTicks s }
  if found then s1.modSub i fun c => { c with retrainDone := c.retrainDone + 1 }
  else
    setEvt
      (s1.modSub i fun c =>
        { c with
          retrainFailed := c.retrainFailed + 1, attempt := 0, retryAt := [s.tick + 160000, s.tick + 320000] })
      .stk 4

/-- RETRAIN: the periodic retraining of a READY subchannel, each STK_RETRAIN_INT. (DESIGN CHOICE: log entry 88) -/
def retrain (i : Fin 16) (found : Bool) (s : State) : State :=
  if pageUp s .stk && decide ((s.sub i).state = .ready) && (s.sub i).retrainAt == s.tick then retrainOp i found s else s

def execRetrain (sub : Fin 16) (found : Bool) (s : State) : Ret := .next (retrain sub found s)

/-- One more attempt after a failed retraining; the second failure fences. -/
def retryOp (i : Fin 16) (rest : List Nat) (found : Bool) (s0 : State) : State :=
  let s := retrainPause i s0
  let n := (s.sub i).attempt.toNat + 1
  if found then
    detect
      (s.modSub i fun c => { c with retryAt := [], attempt := 0, retrainDone := c.retrainDone + 1 })
      .stk i.val 0x65 n clsTransient
  else
    let s1 := setEvt
      (s.modSub i fun c =>
        { c with retryAt := rest, attempt := c.attempt + 1, retrainFailed := c.retrainFailed + 1 })
      .stk 4
    if rest.isEmpty then fenceSub false i s1 else s1

/-- RETRAIN_RETRY: a failed retraining is attempted again, 160,000 and 320,000 ticks after it. (DESIGN CHOICE: log
entry 88) -/
def retrainRetry (i : Fin 16) (found : Bool) (s : State) : State :=
  match (s.sub i).retryAt with
  | [] => s
  | t :: rest =>
    if pageUp s .stk && decide ((s.sub i).state = .ready) && t == s.tick then retryOp i rest found s else s

def execRetrainRetry (sub : Fin 16) (found : Bool) (s : State) : Ret := .next (retrainRetry sub found s)

/-- Retraining that fell due while the subchannel was in self-refresh: an attempt after a failure, or the periodic
one. (DEDUCED: log entry 93) -/
def retrainOverdue (i : Fin 16) (found : Bool) (s : State) : State :=
  let c := s.sub i
  if c.state ≠ .ready then s
  else
    match c.retryAt.filter fun t => decide (s.tick < t) with
    | rest =>
      if rest.length < c.retryAt.length then retryOp i rest found s
      else if c.retrainAt ≤ s.tick then retrainOp i found s
      else s

/-- SREF_EXIT_DONE: the exit completes with the retraining that fell due; `failed` names the subchannels whose
retraining found no working setting. (DEDUCED: log entry 93) -/
def srefExitDone (failed : BitVec 16) (s : State) : State :=
  if pageUp s .stk && s.stk.sref && s.stk.srefExit then
    let s1 := idleNow ((subsTo .sref .ready s).modStacks fun k =>
      { k with sref := false, srefExit := false, subs := k.subs.map fun c => { c with refreshFrom := s.tick } })
    stkServe (s1.each (allFin 16) fun i s => retrainOverdue i (!failed.getLsbD i.val) s)
  else s

def execSrefExitDone (failed : BitVec 16) (s : State) : Ret := .next (srefExitDone failed s)

/-! ## Rate changes (R375, R376) -/

/-- The subchannel is in TRAIN, RESTORE or RATE. -/
def trains (c : Sub) : Bool :=
  match c.state with
  | .train | .restore | .rate => true
  | .absent | .init | .ready | .sref | .fenced => false

/-- A commit has changed STK_CFG.RATE: a rate request. -/
def rateRequest (s : State) : State :=
  s.modStacks fun k =>
    { k with
      wantRate := some (BitVec.ofNat 2 (live s .stk 0x040 0 2))
      subs := k.subs.map fun c => if trains c then { c with deferred := true } else c }

/-- RATE_CHANGE_START: no folio records and no training runs, so the last rate requested is applied. -/
def rateChangeStart (s : State) : State :=
  match s.stk.wantRate with
  | some r =>
    if pageUp s .stk && s.stk.initDone && !s.stk.rateBusy && !anyRecording s &&
        !(s.stk.subs.toList.any trains) then
      let s1 := subsTo .sref .rate (subsTo .ready .rate s)
      let s2 := s1.modStacks fun k =>
        { k with rateBusy := true, sref := false, srefExit := false, liveRate := r, wantRate := none }
      let s3 := s2.each (allFin 16) fun i s =>
        if (s.sub i).state = .rate then s.modSub i fun c => { c with
          deferred := false, restored := cacheValid s i } else s
      arcPeakFell s3
    else s
  | none => s

def execRateChangeStart (s : State) : Ret := .next (rateChangeStart s)

/-- RATE_DONE: every subchannel has its settings at the new rate. -/
def rateDone (s : State) : State :=
  if pageUp s .stk && s.stk.rateBusy && !(s.stk.subs.toList.any trains) then
    stkServe (arcPeakFell (setEvt
      (idleNow (s.modStacks fun k =>
        { k with rateBusy := false, subs := k.subs.map fun c => { c with deferred := false } }))
      .stk 5))
  else s

def execRateDone (s : State) : Ret := .next (rateDone s)

/-! ## The training cache (R368, R369) -/

/-- Cache offsets 0 to 0x1_00FF: the trained settings are open bytes, and what the layout does not list stays erased.
(DESIGN CHOICE: log entry 91) -/
def cacheBody (s : State) : List Byte :=
  let head := leBytes 4 0x00210001 ++ leBytes 4 s.stk.liveRate.toNat ++ leBytes 8 Config.uid.toNat ++
    (allFin 8).flatMap (fun c => leBytes 6 (spdId s.stk c) ++ [0xFF, 0xFF]) ++ List.replicate 0xB0 0xFF
  let known := freeBytes s 0x10000
  head ++
  (allFin 16).flatMap fun i =>
    if (s.sub i).state = .ready ∨ (s.sub i).state = .sref then (known.drop (4096 * i.val)).take 4096
    else List.replicate 4096 0xFF

/-- STK_CTL.TC_STORE: a store is requested; while one runs or waits another is not kept. -/
def tcStore (s : State) : State :=
  if s.stk.tcBusy then s else flashRequest (s.modStacks fun k => { k with tcBusy := true }) .cache

def execTcStore (s : State) : Ret := .next (request .stk 0x054 .write tcStore s)

/-- The cache area lies in the flash. -/
def cacheFits (s : State) : Bool := decide (tcBase s + 0x20000 ≤ flashSize s.flash)

/-- The area is erased, and what a store left in it without its commit word is open. (DESIGN CHOICE: log entry 91) -/
def cacheCut (s : State) : State :=
  let a := tcBase s
  if cacheFits s then
    (takeFrees s 0x10104).modFlash fun f => flashPut (flashErased f a 0x20000) a (freeBytes s 0x10104)
  else s

/-- TC_STORE_DONE: the store ends after a number of failed read-backs. (DESIGN CHOICE: log entries 86, 91) -/
def tcStoreDone (failures : Nat) (s : State) : State :=
  if s.stk.tcBusy && s.flash.use == .cache then
    let a := tcBase s
    let s0 := s.modStacks fun k => { k with tcBusy := false }
    if cacheFits s && decide (failures ≤ stkRetry s) then
      let body := cacheBody s
      let s1 := (takeFrees s0 0x10000).modFlash fun f =>
        flashProgram
          (flashProgram (flashErased f a 0x20000) a (body ++ leBytes 4 (crc32 body).toNat))
          (a + 0x1FF00) (leBytes 4 0x5AA50001)
      let s2 := if 0 < failures then detect s1 .stk 0 0x64 failures clsTransient else s1
      flashFree (setEvt s2 .stk 6)
    else
      flashFree (setEvt (detect (cacheCut s0) .stk 0 0x64 (stkRetry s) clsLasting) .stk 7)
  else s

def execTcStoreDone (failures : Nat) (s : State) : Ret := .next (tcStoreDone failures s)

/-! ## Power and reset of Stacks (R367, R374, R432) -/

/-- Retries that a reset or a switch-off abandons. -/
def stkAbandon (s : State) : State :=
  s.each ((allFin 16).filter fun i => !(s.sub i).retryAt.isEmpty) fun i s =>
    detectFull s .stk i.val 0x65 (s.sub i).attempt.toNat clsLasting true

/-- A store of the training cache in progress is cut short; the read-backs that had failed by then are a free value, and
the log takes the repeats in progress (R432). -/
def tcAbandon (s : State) : State :=
  if s.stk.tcBusy then
    if s.flash.use = .cache then
      let j := (freeNow s).toNat % (stkRetry s + 1)
      let s1 := takeFree s
      flashFree (cacheCut (if j = 0 then s1 else detectFull s1 .stk 0 0x64 (j - 1) clsLasting true))
    else s.modFlash fun f => { f with queue := f.queue.filter fun u => u != .cache }
  else s

/-- Every field of Stacks takes its reset value but STK_FENCE; the DIMMs stay fitted. -/
def stacksReset (s : State) : State :=
  (tcAbandon (stkAbandon s)).modStacks fun k => { Stacks.reset with fence := k.fence, dimms := k.dimms }

/-- Stacks begins an initialisation, which goes on when the SPD hubs have been read. -/
def stacksOn (s : State) : State := s.modStacks fun k => { k with initRunning := true, idleFrom := s.tick }

end Sys2Proof.Machine
end

