-- ==== Sys2Proof/Machine/Transom.lean ====
section
/-! DEFINITION. The Transom fabric up to the hop: identifiers, routing lines and their qualifiers, entry, firing,
merging, depth, and timers (chapter 11, R272 to R287). -/

namespace Sys2Proof.Machine

/-! ## Identifiers (R272 to R274) -/

/-- Bits [15:13] of an identifier. -/
def idClass (x : BitVec 16) : Nat := x.toNat / 8192

/-- The channel, the bay, the folio and the code that an identifier names by its class. -/
def idChan (x : BitVec 16) : ChanNo := ⟨x.toNat / 16 % 512, Nat.mod_lt _ (by decide)⟩
def idBay (x : BitVec 16) : BayNo := ⟨x.toNat / 16 % 16, Nat.mod_lt _ (by decide)⟩
def idFolio (x : BitVec 16) : Fin 64 := ⟨x.toNat / 16 % 64, Nat.mod_lt _ (by decide)⟩
def idCode (x : BitVec 16) : Nat := x.toNat % 16
def idDev (x : BitVec 16) : Nat := x.toNat % 256

/-- The reserved bits between class and number are 0. -/
def idClean (x : BitVec 16) : Bool :=
  match idClass x with
  | 0 => true
  | 1 | 2 | 4 => x.toNat / 256 % 32 == 0
  | 3 => x.toNat / 1024 % 8 == 0
  | _ => false

/-- The SID of a line. -/
def lineSid (n : Fin 256) : BitVec 16 := BitVec.ofNat 16 (0x8000 + n.val)

def devSource (c : Nat) : Bool :=
  c == 0 || (decide (0x10 ≤ c) && decide (c ≤ 0x13)) || (decide (0x20 ≤ c) && decide (c ≤ 0x27)) ||
  (decide (0x30 ≤ c) && decide (c ≤ 0x4F))

def devTask (c : Nat) : Bool :=
  decide (c ≤ 0x0B) || c == 0x10 || (decide (0x20 ≤ c) && decide (c ≤ 0x27)) || (decide (0x30 ≤ c) && decide (c ≤ 0x4F))

/-- The value names a source. -/
def sidNames (x : BitVec 16) : Bool :=
  idClean x &&
  match idClass x with
  | 0 => decide (idCode x ≤ 0xB)
  | 1 => decide (idCode x ≤ 8)
  | 2 => devSource (idDev x)
  | 3 => decide (idCode x ≤ 2)
  | _ => true

/-- The value names a task input. -/
def tidNames (x : BitVec 16) : Bool :=
  idClean x &&
  match idClass x with
  | 0 => decide (idCode x ≤ 0xA)
  | 1 => decide (idCode x ≤ 7)
  | 2 => devTask (idDev x)
  | 3 => decide (idCode x ≤ 2)
  | _ => false

/-! ## Configuration of a line -/

def lineField (s : State) (n : Fin 256) (off lsb width : Nat) : Nat := live s (linePage n) (lineSlot n + off) lsb width

def lineSrc (s : State) (n : Fin 256) : BitVec 16 := BitVec.ofNat 16 (lineField s n 0x00 0 16)
def lineEn (s : State) (n : Fin 256) : Bool := lineField s n 0x00 16 1 == 1
def lineMode (s : State) (n : Fin 256) : Nat := lineField s n 0x00 17 2
def lineN (s : State) (n : Fin 256) : Nat := lineField s n 0x04 0 24
def lineDst (s : State) (n : Fin 256) : List (BitVec 16) :=
  [lineField s n 0x08 0 16, lineField s n 0x08 16 16, lineField s n 0x0C 0 16, lineField s n 0x0C 16 16].map
    (BitVec.ofNat 16)
def lineTask (s : State) (n : Fin 256) : Nat := lineField s n 0x10 0 4
def lineGen (s : State) (n : Fin 256) : Bool := lineField s n 0x10 4 1 == 1

/-- The task inputs of the group destination. -/
def lineGroup (s : State) (n : Fin 256) : List (BitVec 16) :=
  if !lineGen s n then []
  else
    (allFin 16).flatMap fun b =>
      if lineField s n 0x10 (16 + b.val) 1 = 1 then
        ((allFin 32).filter fun c => lineField s n 0x14 c.val 1 == 1).map fun c => chanSid (chanOf b c) (lineTask s n)
      else []

/-- The task inputs that the line reaches; fields that name nothing are ignored. (DEDUCED: log entry 73) -/
def lineDests (s : State) (n : Fin 256) : List (BitVec 16) := (lineDst s n ++ lineGroup s n).filter tidNames

/-- UNASSIGNED of TR_LN_STAT. -/
def lineUnassigned (s : State) (n : Fin 256) : Bool :=
  (!sidNames (lineSrc s n) && lineSrc s n != 0xFFFF) || (lineDst s n).any (fun d => !tidNames d && d != 0xFFFF) ||
  (lineGen s n && decide (0xA < lineTask s n))

def State.line (s : State) (n : Fin 256) : Line := s.transom.lines[n]

def State.modLine (s : State) (n : Fin 256) (f : Line → Line) : State :=
  s.modTransom fun x => { x with lines := vmod x.lines n f }

/-! ## An event on a line (R275, R276, R283) -/

/-- An event leaves the qualifier: it hops one tick later. -/
def linePass (n : Fin 256) (depth : Nat) (s : State) : State :=
  s.modTransom fun x => { x with events := x.events ++ [{ line := n, depth := depth, hopAt := s.tick + 1 }] }

/-- The delayed event of a line is delivered when N ticks have passed (R275). (DEDUCED: log entries 71, 74) -/
def delayExpiry (n : Fin 256) (s : State) : State :=
  match (s.line n).delayed with
  | some (t, d) =>
    if t = s.tick ∧ domUp s 3 then linePass n d (s.modLine n fun l => { l with delayed := none }) else s
  | none => s

def execDelayExpiry (line : Fin 256) (s : State) : Ret := .next (delayExpiry line s)

/-- An event passes the qualifier of a line with EN at 1. (DEDUCED: log entry 71) -/
def lineQualify (n : Fin 256) (depth : Nat) (s0 : State) : State :=
  match lineMode s0 n with
  | 0 => linePass n depth s0
  | 1 =>
    let c := (s0.line n).count + 1
    if lineN s0 n ≤ c then linePass n depth (s0.modLine n fun l => { l with count := 0 })
    else s0.modLine n fun l => { l with count := c }
  | _ =>
    let s := delayExpiry n s0
    match (s.line n).delayed with
    | some _ => setEvt (s.modLine n fun l => { l with dlost := l.dlost + 1 }) .transom 2
    | none => s.modLine n fun l => { l with delayed := some (s.tick + lineN s n, depth) }

/-- The event that a line took in this tick takes a greater depth. -/
def lineDeepen (n : Fin 256) (depth : Nat) (s : State) : State :=
  let s1 := s.modTransom fun x =>
    { x with
      events := x.events.map fun e =>
        if e.line = n ∧ e.hopAt = s.tick + 1 ∧ lineMode s n ≠ 2 then { e with depth := max e.depth depth } else e }
  s1.modLine n fun l =>
    { l with
      lastIn := some (s.tick, depth)
      delayed :=
        match l.delayed with
        | some (t, d) => if t = s.tick + lineN s n then some (t, max d depth) else some (t, d)
        | none => none }

/-- An event reaches a line: a second one in the same tick merges with the first (R283). -/
def enterLine (n : Fin 256) (depth : Nat) (s : State) : State :=
  if !lineEn s n then s
  else
    match (s.line n).lastIn with
    | some (t, d) =>
      if t = s.tick then
        let s1 := s.modLine n fun l => { l with merged := l.merged + 1 }
        if d < depth then lineDeepen n depth s1 else s1
      else lineQualify n depth (s.modLine n fun l => { l with lastIn := some (s.tick, depth) })
    | none => lineQualify n depth (s.modLine n fun l => { l with lastIn := some (s.tick, depth) })

/-- A line takes what reaches the lines. -/
def offerTakes (s : State) (o : Offer) (n : Fin 256) : Bool :=
  lineEn s n && (match o.line with | some m => m == n | none => lineSrc s n == o.sid)

/-- A hop that would exceed depth 16 drops the event; the flag of line `n` is set (R284). -/
def loopDrop (n : Fin 256) (s : State) : State :=
  let was := (s.line n).loopFault
  let s1 := (s.modLine n fun l => { l with loopFault := true }).modTransom fun x => { x with loopCnt := x.loopCnt + 1 }
  let s2 := setEvt s1 .transom 0
  if was then s2 else detect s2 .transom n.val 0x50 0 clsLasting

/-- An event reaches one line that takes it. -/
def offerLine (o : Offer) (n : Fin 256) (s : State) : State :=
  if o.depth ≤ 16 then enterLine n o.depth s else loopDrop n s

/-- An event reaches the lines at the present tick. -/
def offerAll (sid : BitVec 16) (line : Option (Fin 256)) (depth : Nat) (s : State) : State :=
  let o : Offer := { tick := s.tick, sid := sid, line := line, depth := depth }
  let s1 := s.modTransom fun x => { x with offers := (x.offers.filter fun y => y.tick == s.tick) ++ [o] }
  s1.each ((allFin 256).filter (offerTakes s o)) (offerLine o)

/-! ## Entry and firing (R278, R281) -/

/-- The raised sources and the fired lines whose entry falls in the present tick. -/
def sourcesDue (s : State) : List RaisedSrc := s.transom.raised.filter fun r => r.depth.isNone && r.enterAt == s.tick
def firesDue (s : State) : List (Fin 256) := (s.transom.fired.filter fun x => x.2 == s.tick).map Prod.fst

/-- TRANSOM_ENTRY: what enters in the present tick enters its lines at depth 0. (DEDUCED: log entry 73) -/
def transomEntry (s : State) : State :=
  if domUp s 3 then
    let src := sourcesDue s
    let fired := firesDue s
    let s1 := s.modTransom fun x =>
      { x with
        raised := x.raised.filter fun r => !(r.depth.isNone && decide (r.enterAt ≤ s.tick))
        fired := x.fired.filter fun y => decide (s.tick < y.2) }
    let s2 := s1.each src fun r => offerAll r.sid none 0
    s2.each fired fun n => offerAll (lineSid n) (some n) 0
  else s

def execTransomEntry (s : State) : Ret := .next (transomEntry s)

/-- Lines fired by one write enter together, at the first or second tick after it. (DESIGN CHOICE: log entry 26) -/
def fireLines (l : List (Fin 256)) (s : State) : State :=
  (takeFree s).modTransom fun x => { x with fired := x.fired ++ l.map fun n => (n, asyncTick s) }

def execTrFire (line : Fin 256) (s : State) : Ret := .next (request .transom 0x040 .write (fireLines [line]) s)

/-- The lines of TR_FIRE_GRP_k. -/
def groupLines (k : Fin 8) (lines : Word) : List (Fin 256) :=
  (allFin 32).filterMap fun j => if lines.getLsbD j.val then some ⟨32 * k.val + j.val, by omega⟩ else none

def execTrFireGrp (k : Fin 8) (lines : Word) (s : State) : Ret :=
  .next (request .transom (0x044 + 4 * k.val) .write (fireLines (groupLines k lines)) s)

/-! ## Activations and merging (R282) -/

/-- An activation on its way: the input, the depth and the line. -/
structure Activation where
  tid : BitVec 16
  depth : Nat
  line : Fin 256

/-- The event that is kept: of greatest depth, on the lowest-numbered line. -/
def actKept (x : Activation) (l : List Activation) : Activation :=
  l.foldl (fun a b => if a.depth < b.depth ∨ (a.depth = b.depth ∧ b.line < a.line) then b else a) x

/-- Each line counts its events that were merged away. (DESIGN CHOICE: log entry 72) -/
def mergeLines (kept : Activation) (l : List Activation) (s : State) : State :=
  (s.each l fun a s => s.modLine a.line fun x => { x with merged := x.merged + 1 }).modLine kept.line fun x =>
    { x with merged := x.merged - 1 }

/-- Several events reached one input: its counter and the totals. (DESIGN CHOICE: log entry 72) -/
def mergeCount (tid : BitVec 16) (n : Nat) (s : State) : State :=
  setEvt
    (s.modTransom fun x =>
      { x with
        mrgCnt := sparseSet (fun _ => 0) x.mrgCnt tid.toNat
          (sparseGet (fun _ => (0 : BitVec 16)) x.mrgCnt tid.toNat + BitVec.ofNat 16 n)
        mrgTotal := x.mrgTotal + BitVec.ofNat 32 n })
    .transom 1

/-- The activations of one input become one. -/
def mergeInput (x : Activation) (l : List Activation) (s : State) : State :=
  if l.isEmpty then s else mergeCount x.tid l.length (mergeLines (actKept x l) (x :: l) s)

/-- The inputs of a list, rising, each once. (DEDUCED: log entry 25) -/
def actInputs (l : List Activation) : List Nat := l.foldl (fun t a => setMember t a.tid.toNat true) []

/-- The activations of each input, with that of the kept event. -/
def actGroups (l : List Activation) : List (Activation × List Activation) :=
  (actInputs l).filterMap fun t =>
    match l.filter fun a => a.tid.toNat == t with
    | [] => none
    | x :: rest => some (x, rest)

/-- The merges of one tick. Where several inputs merge, TR_MRG_LAST names one of them. (DESIGN CHOICE: log entry 72)
-/
def mergeAll (gs : List (Activation × List Activation)) (s : State) : State :=
  let many := (gs.filter fun x => !x.2.isEmpty).map fun x => x.1.tid
  let s1 := s.each gs fun x => mergeInput x.1 x.2
  match many with
  | [] => s1
  | [t] => s1.modTransom fun x => { x with mrgLast := t }
  | t :: _ => (takeFree s1).modTransom fun x => { x with mrgLast := (many[(freeNow s1).toNat % many.length]?).getD t }

/-! ## Leaving the lines (R279) -/

/-- Line events that hop in the present tick. -/
def hopsDue (s : State) : List LineEvt := s.transom.events.filter fun e => e.hopAt == s.tick

/-- An event of a line reaches its destinations: the activations, or a drop. (DESIGN CHOICE: log entry 72) -/
def hopDests (e : LineEvt) (acc : State × List Activation) : State × List Activation :=
  let s := acc.1
  let l := lineDests s e.line
  if !lineEn s e.line || l.isEmpty then acc
  else if 16 ≤ e.depth then (loopDrop e.line s, acc.2)
  else
    (s.modLine e.line fun x => { x with events := x.events + 1 },
      acc.2 ++ l.map fun t => { tid := t, depth := e.depth + 1, line := e.line })

/-- An event of a line reaches the lines that name it as source. -/
def hopChain (e : LineEvt) (s : State) : State :=
  if lineEn s e.line then offerAll (lineSid e.line) none (e.depth + 1) s else s

/-- A source raised by an activation of the tick before reaches its lines. -/
def hopRaised (r : RaisedSrc) (s : State) : State :=
  match r.depth with
  | some d => offerAll r.sid none (d + 1) s
  | none => s

/-- The hops of the present tick into lines and to destinations: the state, and the activations after merging.
(DEDUCED: log entry 25) -/
def hopAll (s : State) : State × List Activation :=
  let ev := hopsDue s
  let src := s.transom.raised.filter fun r => r.depth.isSome && r.tick + 1 == s.tick
  let s1 := s.modTransom fun x =>
    { x with
      events := x.events.filter fun e => decide (s.tick < e.hopAt)
      hopTick := if ev.isEmpty && src.isEmpty then x.hopTick else some s.tick
      raised := x.raised.filter fun r => !(r.depth.isSome && decide (r.tick + 1 ≤ s.tick)) }
  let (s2, acts) := ev.foldl (fun acc e => hopDests e acc) (s1, [])
  let s3 := s2.each ev hopChain
  let s4 := s3.each src hopRaised
  let gs := actGroups acts
  (mergeAll gs s4, gs.map fun x => actKept x.1 x.2)

/-! ## A commit of a line page (R277) -/

/-- What reached the lines in the present tick and line `n` takes under the configuration of `s`. -/
def offersNow (s : State) (n : Fin 256) : List Offer :=
  s.transom.offers.filter fun o => o.tick == s.tick && offerTakes s o n

/-- A line whose fields a commit changed at the present tick: its count restarts, a pending delayed event is
discarded, and what reached it in this tick, before the commit did, is handled under the new configuration. (DEDUCED:
log entry 71) -/
def lineChanged (old : State) (n : Fin 256) (s : State) : State :=
  let before := (offersNow old n).filter fun o => decide (o.depth ≤ 16)
  let s1 := s.modLine n fun l =>
    { l with
      count := 0, delayed := none, lastIn := none, merged := l.merged - BitVec.ofNat 16 (before.length - 1) }
  let s2 := s1.modTransom fun x =>
    { x with events := x.events.filter fun e => !(e.line == n && (!lineEn s n || e.hopAt == s.tick + 1)) }
  s2.each ((offersNow s n).filter fun o => decide (o.depth ≤ 16) || !offerTakes old o n) fun o => offerLine o n

/-- The activations that the hops of the present tick make under the present configuration. -/
def hopActs (s : State) : List Activation := ((hopsDue s).foldl (fun acc e => hopDests e acc) (s, [])).2

/-- The task input commits a line page. -/
def isLineCommit (tid : BitVec 16) : Bool := decide (0x4008 ≤ tid.toNat) && decide (tid.toNat ≤ 0x400B)

/-- Commits of line pages that the hops of the present tick activate: the other hops of the tick find the destinations
that these put in force (R277). (DEDUCED: log entry 71) -/
def lineCommits (s : State) : List Activation :=
  (actGroups ((hopActs s).filter fun a => isLineCommit a.tid)).map fun x => actKept x.1 x.2

/-! ## Timers (R285) -/

def State.timer (s : State) (k : Fin 16) : Timer := s.transom.timers[k]

def State.modTimer (s : State) (k : Fin 16) (f : Timer → Timer) : State :=
  s.modTransom fun x => { x with timers := vmod x.timers k f }

/-- A start: the timer takes its settings. A stop of the same tick wins. (DEDUCED: log entry 75) -/
def timerStart (k : Fin 16) (s : State) : State :=
  let per := live s .transom (0x100 + 16 * k.val) 0 32
  s.modTimer k fun t =>
    { t with
      running := t.stopTick != some s.tick, nextAt := s.tick + per, period := per
      count := live s .transom (0x104 + 16 * k.val) 0 16, expired := 0 }

/-- (DEDUCED: log entry 75) -/
def timerStop (k : Fin 16) (s : State) : State :=
  s.modTimer k fun t => { t with running := false, stopTick := some s.tick }

def execTimerStart (k : Fin 16) (via : Via) (s : State) :
    Ret := .next (request .transom (0x108 + 16 * k.val) via (timerStart k) s)

def execTimerStop (k : Fin 16) (via : Via) (s : State) :
    Ret := .next (request .transom (0x108 + 16 * k.val) via (timerStop k) s)

/-- TIMER_EXPIRY: the expiry source, and with the last one the done source. -/
def timerExpiry (k : Fin 16) (s : State) : State :=
  let t := s.timer k
  if domUp s 3 && t.running && t.nextAt == s.tick then
    let last := t.count != 0 && decide (t.count ≤ t.expired.toNat + 1)
    let s1 := raise
      (s.modTimer k fun t => { t with expired := satInc t.expired, nextAt := t.nextAt + t.period, running := !last })
      (devSid (0x30 + k.val))
    if last then raise (setEvt s1 .transom 3) (devSid (0x40 + k.val)) else s1
  else s

/-- (DESIGN CHOICE: log entry 3) -/
def execTimerExpiry (k : Fin 16) (s : State) : Ret := .next (timerExpiry k s)

end Sys2Proof.Machine
end

