-- ==== Sys2Proof/Machine/Commit.lean ====
section
/-! DEFINITION. Commits (chapter 2, R36 to R49) and what a commit of each page does at its tick. -/

namespace Sys2Proof.Machine

/-! ## Which words a commit changed -/

/-- Live words of a page in a range of offsets. -/
def liveIn (s : State) (p : Page) (lo hi : Nat) : RegStore :=
  (s.page p).live.filter fun x => decide (lo ≤ x.1) && decide (x.1 < hi)

/-- A commit changed a word of the range. -/
def rangeChanged (old s : State) (p : Page) (lo hi : Nat) : Bool := liveIn old p lo hi != liveIn s p lo hi

/-- A commit changed a field. -/
def fieldChanged (old s : State) (p : Page) (off lsb width : Nat) : Bool :=
    live old p off lsb width != live s p off lsb width

/-! ## A channel page -/

/-- CH_FORCE_CFG.SEL and SEL_LOAD. -/
def selField (s : State) (g : ChanNo) : Bool := liveBit s (.channel g) 0x0D0 8
def selLoad (s : State) (g : ChanNo) : Bool := liveBit s (.channel g) 0x0D0 9

/-- The selector after a commit; a change-span activation of this tick toggles it afterwards (R68). -/
def selCommitted (g : ChanNo) (s : State) : State :=
  if selLoad s g then
    s.modForce g fun f => { f with sel := selField s g != (f.toggleTick == some s.tick) }
  else s

/-- A commit asks for a span change (R67): it changes the span field in force, or it selects a field that holds a
different span from the live one. -/
def commitAsksSpan (old s : State) (g : ChanNo) : Bool :=
  let sel := (old.chan g).force.sel
  spanField old g sel != spanField s g sel ||
  (selLoad s g && spanTarget s g != (s.chan g).force.spanLive)

/-- Selector and span fields (R67, R68, R149); a span request on a Booster channel changes nothing (R78). (DEDUCED:
log entry 36) -/
def commitSpan (g : ChanNo) (old s : State) : State :=
  let s1 := selMoved g (selCommitted g s)
  if commitAsksSpan old s1 g then
    if isBooster s1 g then setEvt s (.channel g) evSpanIgnored else spanRequest g s1
  else s1

/-- BOOST (R73, R259). (DEDUCED: log entry 37) -/
def commitBoost (g : ChanNo) (old s : State) : State :=
  if liveBoost old g = liveBoost s g then s
  else
    let s1 := closeTick (s.modForce g fun f => { f with boostAt := some s.tick }) g 8
    if (s1.chan g).force.fixed then s1 else s1.modForce g fun f => { f with
      boostReq := f.boostReq ++ [(s.tick, liveBoost s g)] }

/-- MODE, RATE and DIV (R80, R144, R145). (DESIGN CHOICE: log entry 50) -/
def commitMode (g : ChanNo) (old s : State) : State :=
  let was := modeOf (liveMode old g)
  let now := modeOf (liveMode s g)
  let s1 :=
    if was ≠ now ∧ !modeForces now then
      let x := s.modLoop g fun l => { l with freeze := false, freezeReq := [] }
      if modeForces was then closeTick x g 8 else x
    else s
  if (was ≠ now ∨ liveRate old g ≠ liveRate s g ∨ liveDiv old g ≠ liveDiv s g) ∧ !(s.chan g).force.fixed then
    s1.modLoop g fun l => { l with modeReq := l.modeReq ++ [(s.tick, now, liveRate s g, liveDiv s g)] }
  else s1

/-- SRC (R98), and what the programs keep (R116, R117, R122). (DEDUCED: log entry 42) -/
def commitProg (g : ChanNo) (old s : State) : State :=
  let p := Page.channel g
  let s1 := if srcSel old g ≠ srcSel s g ∧ (s.chan g).prog.running then progHalt g s else s
  let s2 :=
    if rangeChanged old s p 0x120 0x12C || rangeChanged old s p 0x130 0x134 then
      s1.modProg g fun x => { x with ready := false }
    else s1
  if cdxLen s g ≤ cdxLoop s g ∨ lvPeriod s g ≤ lvWidth s g then setEvt s2 p evAdjusted else s2

/-- STEP and INTERVAL (R93, R94). -/
def commitSlew (g : ChanNo) (old s : State) : State :=
  if slewInterval old g = slewInterval s g then changeSlew s g id
  else changeSlew s g (slewNewInterval s.tick (slewInterval s g))

/-- The restart boundary of a new PDEC: the first boundary of its rate at least one tick after the present one.
(DESIGN CHOICE: log entry 131) -/
def restartAt (s : State) (pdec : Nat) : Time :=
  BitVec.ofNat 64 ((s.time.toNat / precTicks pdec + 1) * precTicks pdec)

/-- FSEL, PSEL and PDEC (R175, R180). (DESIGN CHOICE: log entry 131) -/
def commitMeas (g : ChanNo) (old s : State) : State :=
  let p := Page.channel g
  let s1 :=
    if fieldChanged old s p 0x200 0 2 then
      s.modMeas g fun m => { m with laneReq := m.laneReq ++ [(s.tick, liveBit s p 0x200 0, liveBit s p 0x200 1)] }
    else s
  if fieldChanged old s p 0x200 4 4 then
    let d := live s p 0x200 4 4
    s1.modMeas g fun m => { m with prec := { m.prec with restart := some (restartAt s d, d) } }
  else s1

/-- CH_RES_CFG.MODE (R186, R189). -/
def commitRes (g : ChanNo) (old s : State) : State :=
  let s1 := if resMode old g = 2 ∧ resMode s g ≠ 2 then s.modRes g fun r => { r with capture := none } else s
  if resMode old g = 0 ∧ resMode s g ≠ 0 then s1.modRes g fun r => { r with fresh := true } else s1

/-- A window's CLOSE bit rises while its latch is set (R502). -/
def commitClose (g : ChanNo) (w : Win) (old s : State) : State :=
  if !winClose old g w && winClose s g w && (s.win g w).latch != .inside && stest s g == 0 then
    closeTick s g (winCause w)
  else s

/-- Thresholds and modes of the windows (R202, R208, R502), and the Louvre trip's shutter action (R124). (DEDUCED: log
entries 34, 35, 59) -/
def commitWindows (g : ChanNo) (old s : State) : State :=
  let p := Page.channel g
  let test := stest old g != stest s g
  let s1 := if test then latchClear g .i (latchClear g .v s) else s
  let s2 := if test || sampled old g != sampled s g then blankBoth g 32 s1 else s1
  let s3 := if rangeChanged old s p 0x280 0x284 then blankFor g .v 32 s2 else s2
  let s4 := if rangeChanged old s p 0x284 0x288 then blankFor g .i 32 s3 else s3
  let s5 := commitClose g .i old (commitClose g .v old s4)
  let s6 :=
    if tripAct old g < 2 ∧ 2 ≤ tripAct s g ∧ (s5.chan g).prog.tripped then closeTick s5 g 3 else s5
  selfClear g .i (selfClear g .v s6)

/-- What a commit of a channel page does at its tick; `old` is the state before it. -/
def chanCommitted (g : ChanNo) (old s : State) : State :=
  let s1 := commitMode g old (commitBoost g old (commitSpan g old s))
  let s2 := commitRes g old (commitMeas g old (commitSlew g old (commitProg g old s1)))
  resample g (refreshTarget g (commitWindows g old s2))

/-! ## The other pages -/

/-- The lines of a line page whose fields changed (R277). -/
def linesCommitted (q : Fin 4) (old s : State) : State :=
  s.each ((allFin 256).filter fun n =>
    linePage n == .line q && rangeChanged old s (.line q) (lineSlot n) (lineSlot n + 32)) (lineChanged old)

/-- A folio whose fields changed (R312, R323). (DEDUCED: log entry 79) -/
def folioCommitted (f : Fin 64) (s : State) : State := folioAdmit f (folioEndAs f 2 (lastSampleBefore s) s)

def foliosCommitted (q : Fin 8) (old s : State) : State :=
  s.each ((allFin 64).filter fun f =>
    folioPage f == .folio q && rangeChanged old s (.folio q) (folioSlot f) (folioSlot f + 0x1C0)) folioCommitted

/-- The queues of a DMA page whose fields changed (R390). -/
def dmaCommitted (i : Fin 2) (old s : State) : State :=
  dmaChanged old ((allFin 16).filter fun q =>
    dmaPage q == .dma i && rangeChanged old s (.dma i) (dmaSlot q) (dmaSlot q + 0x40)) s

/-- RATE and SREF_EN of Stacks (R375). -/
def stacksCommitted (old s : State) : State :=
  let s1 := if fieldChanged old s .stk 0x040 0 2 then rateRequest s else s
  if srefEn s && !srefEn old then idleNow s1 else s1

/-- LEN of a Catalogue converter changes from 0 (R226). -/
def catCommitted (b : BayNo) (old s : State) : State :=
  s.each [.a, .b] fun k s => if catLen old b k = 0 ∧ catLen s b k ≠ 0 then catStart b k s else s

/-- Watermark and timeout of a Shelf queue (R295, R296). -/
def shelfCommitted (b : BayNo) (old s : State) : State :=
  shelfLevel b (if shfTmo old b = shfTmo s b then s else shelfNewTmo b s)

/-- What a commit of a page does at its tick. -/
def committed (p : Page) (old s : State) : State :=
  match p with
  | .channel g => chanCommitted g old s
  | .line q => linesCommitted q old s
  | .folio q => foliosCommitted q old s
  | .dma i => dmaCommitted i old s
  | .stk => stacksCommitted old s
  | .catalogue b => catCommitted b old s
  | .shelf b => shelfCommitted b old s
  | .lintel => lintelShares s
  | .device | .faultLog _ | .transom | .archive | .host | .msix | .ndolek | .accession | .bay _ | .sash _ => s

/-! ## The commit itself (R36 to R49) -/

/-- The boot loader no longer waits for a commit of the page (R454). (DESIGN CHOICE: log entry 24) -/
def commitEnded (p : Page) (s : State) : State :=
  s.modPower fun x => if x.waitCommit = some p then { x with waitCommit := none } else x

/-- Every live value is copied into its draft. -/
def discardDrafts (h : PageHdr) : PageHdr := { h with draft := h.live, discardHeld := false }

/-- A held DISCARD is carried out (R43). (DESIGN CHOICE: log entry 24) -/
def heldDiscard (p : Page) (s : State) : State :=
  s.modPage p fun h => if h.discardHeld then discardDrafts h else h

/-- The values that a commit of a page makes live: on channels 4 to 31 the words from CH_BOOST_CFG on hold their reset
values (R96). -/
def liveVals (p : Page) (vals : RegStore) : RegStore :=
  match p with
  | .channel g =>
    if (inBay g).val < 4 then vals else vals.filter fun x => !(decide (0x1A0 ≤ x.1) && decide (x.1 ≤ 0x1AC))
  | _ => vals

/-- The header of a page whose checked values take effect (R40). -/
def hdrApply (vals : RegStore) (t : Time) (h : PageHdr) : PageHdr :=
  { h with live := vals, seq := h.seq + 1, commitTime := t, aborted := false, staged := none }

/-- Checked values take effect at the present tick. -/
def commitApply (p : Page) (vals : RegStore) (s : State) : State :=
  let s1 := setEvt (s.modPage p (hdrApply (liveVals p vals) s.time)) p evtDone
  let s2 := if (s.page p).clampCount = 0 then s1 else setEvt s1 p evtClamped
  heldDiscard p (commitEnded p (committed p s s2))

/-- A commit is aborted by a lasting fault in the draft storage (R44). (DESIGN CHOICE: log entry 23) -/
def commitAbort (p : Page) (s : State) : State :=
  let s1 := setEvt (s.modPage p fun h => { h with aborted := true }) p evtAborted
  heldDiscard p (commitEnded p (detect s1 p 0 0x01 0 clsLasting))

/-- GO: the drafts are captured; while a check runs the commit waits (R36, R42). -/
def commitGo (p : Page) (s : State) : State :=
  s.modPage p fun h => if h.captured.isSome then { h with pending := true } else { h with captured := some h.draft }

def execCommitGo (p : Page) (s : State) : Ret := .next (request p 0x01C .write (commitGo p) s)

/-- The commit that waited for the check to end captures the drafts (R42). (DESIGN CHOICE: log entry 24) -/
def commitNext (p : Page) (s : State) : State :=
  s.modPage p fun h => if h.pending then { h with pending := false, captured := some h.draft } else h

/-- The draft with the values of the clamped fields. -/
def clampDraft (p : Page) (vals draft : RegStore) (l : List ClampRule) : RegStore :=
  l.foldl
    (fun d r => storeSet p d r.off (setField (storeGet p d r.off) r.lsb r.width (field (storeGet p vals r.off) r.lsb
    r.width)))
    draft

/-- The header of a page whose check has ended (R39). -/
def hdrChecked (p : Page) (vals : RegStore) (l : List ClampRule) (h : PageHdr) : PageHdr :=
  { h with
    captured := none, draft := clampDraft p vals h.draft l
    clampCount := BitVec.ofNat 16 (min l.length 0xFFFF)
    clampList := (l.take 8).map ClampRule.id
    clampSeq := h.seq + 1 }

/-- The check of captured drafts ends. -/
def checkPassed (p : Page) (captured : RegStore) (s : State) : State :=
  let (vals, l) := clampAll p captured
  let s1 := commitNext p (s.modPage p (hdrChecked p vals l))
  if (s1.page p).taskApply then s1.modPage p fun h => { h with staged := some vals } else commitApply p vals s1

/-- The hops of the present tick have found the lines as they are: the check of a line page, whose length nothing states
(R7), ends in a later tick, so that every hop of the commit's tick finds the new destinations (R277). -/
def lineHopped (s : State) (p : Page) : Bool :=
  match p with
  | .line _ => s.transom.hopTick == some s.tick
  | _ => false

/-- COMMIT_CHECK_END: the check ends, or the draft storage has a lasting fault. A fault found while a checked commit
is staged aborts that one. (DESIGN CHOICE: log entry 23) -/
def commitCheckEnd (p : Page) (draftFault : Bool) (s : State) : State :=
  if !pageUp s p || lineHopped s p then s
  else
    match (s.page p).captured, draftFault with
    | some c, false => checkPassed p c s
    | some _, true => commitAbort p (commitNext p (s.modPage p fun h => { h with captured := none }))
    | none, true =>
      if (s.page p).staged.isSome then commitAbort p (s.modPage p fun h => { h with staged := none }) else s
    | none, false => s

/-- (DESIGN CHOICE: log entry 4) -/
def execCommitCheckEnd (p : Page) (draftFault : Bool) (s : State) : Ret := .next (commitCheckEnd p draftFault s)

/-- DISCARD: the live values return to the drafts and a staged commit is dropped; while a check runs the copy waits
(R43). (DESIGN CHOICE: log entry 24) -/
def commitDiscard (p : Page) (s : State) : State :=
  s.modPage p fun h =>
    if h.captured.isSome then { h with discardHeld := true, staged := none }
    else { discardDrafts h with staged := none }

def execDiscard (p : Page) (s : State) : Ret := .next (request p 0x01C .write (commitDiscard p) s)

/-- The commit task input: the staged values take effect, or TASK_EMPTY is set (R46, R47). -/
def commitTask (p : Page) (s : State) : State :=
  match (s.page p).staged with
  | some vals => commitApply p vals s
  | none => setEvt s p evtTaskEmpty

def execCommitTask (p : Page) (depth : Nat) (s : State) : Ret :=
  .next (if hasCommitTask p then request p 0x01C (.task depth) (commitTask p) s else s)

end Sys2Proof.Machine
end

