-- ==== Sys2Proof/Machine/Ndolek.lean ====
section
/-! DEFINITION. The Ndolek link (chapter 16): frames, delay and alignment, system time, the trigger lines,
retransmission and messages. -/

namespace Sys2Proof.Machine

/-! ## Events, faults and roles -/

def evtLinkUp : Nat := 0
def evtLinkLost : Nat := 1
def evtAligned : Nat := 2
def evtTimeStep : Nat := 3
def evtLate : Nat := 4
def evtLost : Nat := 5
def evtMsgRx : Nat := 6
def evtMsgRefused : Nat := 7
def evtMsgDrop : Nat := 8

/-- The number of a port as a unit (R422). -/
def portUnit (p : Port) : Nat :=
  match p with
  | .up => 0
  | .down => 1

def ndkTx (n : Ndolek) (p : Port) : NdkTx :=
  match p with
  | .up => n.up
  | .down => n.down

def State.modTx (s : State) (p : Port) (f : NdkTx → NdkTx) : State :=
  s.modNdk fun n =>
    match p with
    | .up => { n with up := f n.up }
    | .down => { n with down := f n.down }

def portLink (n : Ndolek) (p : Port) : Bool :=
  match p with
  | .up => n.upLink
  | .down => n.downLink

/-- The device supplies system time (R401). -/
def isRoot (s : State) : Bool := s.ndolek.state == .root

/-- The device carries and raises edges: it is ALIGNED, or it is the root (R412, R414). -/
def linkAligned (s : State) : Bool := s.ndolek.state == .aligned || isRoot s

/-- The device's number (R402). (DEDUCED: log entry 119) -/
def ndkDevice (n : Ndolek) : Nat := 32 * n.straps.chain.toNat + n.position.toNat

/-- PMAX: the largest P at or below the device. -/
def ndkPmax (n : Ndolek) : BitVec 16 := if n.p.toNat ≤ n.pmaxBelow.toNat then n.pmaxBelow else n.p

/-- The device sends on a port (R403, R407, R411): downstream the root, and a device from its first alignment on;
upstream any other device. (DEDUCED: log entry 99) -/
def sendsOn (s : State) (p : Port) : Bool :=
  match p with
  | .down => s.ndolek.downLink && (isRoot s || s.ndolek.everAligned)
  | .up => s.ndolek.upLink && !isRoot s

/-! ## Frame times (R403, R406) -/

/-- The number of the frame that begins at or before system time `t`. -/
def frameNo (t : Nat) : Nat := 25 * t / 512

/-- ceil(512 × k ÷ 25). -/
def frameTickOf (k : Nat) : Nat := (512 * k + 24) / 25

/-- The departure of frame `k` in 1/64 tick. -/
def frameStamp (k : Nat) : Nat := 131072 * k / 100

/-! ## Held edges (R413) -/

/-- The held edges in rising order with one more. -/
def insertHeld (x : HeldEdge) (l : List HeldEdge) : List HeldEdge :=
  l.takeWhile (fun h => decide (h.e ≤ x.e)) ++ x :: l.dropWhile (fun h => decide (h.e ≤ x.e))

/-- Held edges in rising order: of two less than 64 ticks apart the later is dropped, and the earlier is marked. The
number counts those dropped. (DESIGN CHOICE: log entry 102) -/
def spreadHeld (l : List HeldEdge) : List HeldEdge × Nat :=
  l.foldl
    (fun acc x =>
      match acc.1.getLast? with
      | some h =>
        if x.e < h.e + 1024 then (acc.1.dropLast ++ [{ h with merged := true }], acc.2 + 1) else (acc.1 ++ [x], acc.2)
      | none => ([x], acc.2))
    ([], 0)

/-- A port's sender takes an edge of line `i`. (DESIGN CHOICE: log entry 102) -/
def holdEdge (p : Port) (i : Fin 8) (x : HeldEdge) (s : State) : State :=
  let l := spreadHeld (insertHeld x (ndkTx s.ndolek p).held[i])
  if 4 < l.1.length then s.modNdk fun n => { n with lost := n.lost + 1 }
  else
    (s.modTx p fun t => { t with held := vset t.held i l.1 }).modNdk fun n =>
      { n with merges := n.merges + BitVec.ofNat 16 l.2 }

/-! ## Edges on their way to the lines (R414) -/

/-- Edge `e` of line `i` reaches the device, which raises it at ceil(e ÷ 16) + LAG, or at the next tick when that tick
has passed. (DESIGN CHOICE: log entry 102) -/
def edgeArrives (i : Fin 8) (e : Int) (s : State) : State :=
  if linkAligned s then
    let due : Int := (e + 15) / 16 + (s.ndolek.lagLive.toNat : Int)
    let late := decide (due < (s.time.toNat : Int))
    let x : DueEdge := { e := e, at_ := if late then s.time.toNat + 1 else due.toNat }
    let s1 := s.modNdk fun n => { n with raise := vmod n.raise i fun l => l ++ [x] }
    if late then setEvt (s1.modNdk fun n => { n with late := n.late + 1 }) .ndolek evtLate else s1
  else s

/-- An edge of the root's OR (R413): sent down once, and raised in the root itself. (DESIGN CHOICE: log entry 102) -/
def rootEdge (i : Fin 8) (x : HeldEdge) (s : State) : State := edgeArrives i x.e (holdEdge .down i x s)

/-- Line `i` is driven by this device at the present tick (R412). -/
def driving (s : State) (i : Fin 8) : Bool :=
  match s.ndolek.drive[i] with
  | some t => decide (s.tick < t)
  | none => false

/-- A device that is no root holds an edge for its port UP; the root takes it when the OR was low. -/
def upwardEdge (i : Fin 8) (x : HeldEdge) (orLow : Bool) (s : State) : State :=
  if isRoot s then (if orLow then rootEdge i x s else s) else holdEdge .up i x s

/-- NDK_CFG.TWIDTH. -/
def driveWidth (s : State) : Nat := live s .ndolek 0x040 16 16

/-- The drive-line task (R412). (DESIGN CHOICE: log entry 102) -/
def driveLine (i : Fin 8) (s : State) : State :=
  if linkAligned s then
    let rising := !driving s i
    let now := s.time.toNat
    let from_ := match s.ndolek.drove[i] with | some x => if rising then now else x.1 | none => now
    let s1 := s.modNdk fun n =>
      { n with
        drive := vset n.drive i (some (s.tick + driveWidth s)),
        drove := vset n.drove i (some (from_, now + driveWidth s)) }
    if rising then
      upwardEdge i { e := 16 * s.time.toNat, merged := false, tries := 0 } (!s.ndolek.belowState.getLsbD i.val) s1
    else s1
  else s.modNdk fun n => { n with lost := n.lost + 1 }

def execDriveLine (i : Fin 8) (depth : Nat) (s : State) : Ret :=
  .next (request .ndolek 0x058 (.task depth) (driveLine i) s)

/-- DRIVE_END: the drive of line `i` ends at the present tick. (DESIGN CHOICE: log entry 102) -/
def driveEnd (i : Fin 8) (s : State) : State :=
  if s.ndolek.drive[i] = some s.tick then s.modNdk fun n => { n with drive := vset n.drive i none } else s

def execDriveEnd (i : Fin 8) (s : State) : Ret := .next (driveEnd i s)

/-- The edges of line `i` to raise now. -/
def edgesNow (s : State) (i : Fin 8) : List DueEdge := s.ndolek.raise[i].filter fun x => x.at_ == s.time.toNat

/-- One edge is raised: the line source, and a condition for the folios (R329, R414). -/
def raiseEdge (i : Fin 8) (x : DueEdge) (s : State) : State :=
  let s1 := raise s (devSid (0x20 + i.val))
  if archiveOn s1 then s1.each (allFin 64) fun f s => presentCond (4 + i.val) x.e f s else s1

/-- LINE_EDGE_RAISE: the edges of line `i` whose tick has come. In HOLDOVER none is raised (R411). -/
def lineEdgeRaise (i : Fin 8) (s : State) : State :=
  let now := edgesNow s i
  let s1 := s.modNdk fun n => { n with
    raise := vmod n.raise i fun l => l.filter fun x => decide (s.time.toNat < x.at_) }
  if linkAligned s then s1.each now (raiseEdge i) else s1

def execLineEdgeRaise (i : Fin 8) (s : State) : Ret := .next (lineEdgeRaise i s)

/-! ## Messages (R418) -/

def msgDest (m : Vector Word 4) : Nat := (m[0].extractLsb' 0 10).toNat
def msgBroadcast (m : Vector Word 4) : Bool := m[0].getLsbD 15
def msgSource (m : Vector Word 4) : Nat := (m[0].extractLsb' 16 16).toNat

/-- A message for this device enters its receive queue, or is dropped when the queue is full. (DEDUCED: log entry 103)
-/
def msgAccept (m : Vector Word 4) (s : State) : State :=
  if 16 ≤ s.ndolek.rx.length then
    setEvt (s.modNdk fun n => { n with drops := n.drops + 1 }) .ndolek evtMsgDrop
  else setEvt (s.modNdk fun n => { n with rx := n.rx ++ [m] }) .ndolek evtMsgRx

/-- A message goes on through a port. (DEDUCED: log entry 103) -/
def msgForward (p : Port) (m : Vector Word 4) (s : State) : State :=
  s.modTx p fun t => { t with msgs := t.msgs ++ [{ words := m, tries := 0 }] }

/-- A message travels down through this device. -/
def msgDownward (m : Vector Word 4) (s : State) : State :=
  if msgBroadcast m then
    let s1 := if msgSource m = ndkDevice s.ndolek then s else msgAccept m s
    msgForward .down m s1
  else if msgDest m = ndkDevice s.ndolek then msgAccept m s
  else msgForward .down m s

/-- A message travels up through this device; the root turns it down. (DEDUCED: log entry 103) -/
def msgUpward (m : Vector Word 4) (s : State) : State :=
  if isRoot s then msgDownward m s
  else if !msgBroadcast m && msgDest m == ndkDevice s.ndolek then msgAccept m s
  else msgForward .up m s

/-- SEND: the message waits for a frame, or is refused. -/
def ndkSend (s : State) : State :=
  if s.ndolek.txMsg.isSome then setEvt s .ndolek evtMsgRefused
  else s.modNdk fun n => { n with txMsg := some n.msgTx }

def execSend (s : State) : Ret := .next (request .ndolek 0x058 .write ndkSend s)

/-- The oldest received message, zeros when there is none. -/
def rxOldest (n : Ndolek) : Vector Word 4 := n.rx.head?.getD (Vector.replicate 4 0)

def rxPop (s : State) : State := s.modNdk fun n => { n with rx := n.rx.tail }

/-- MSG_RX_READ: a read of NDK_MSG_RX3 answers its word and removes the message. -/
def execMsgRxRead (s : State) : Ret :=
  .next (if s.host.linkUp && pageOpen s .ndolek then answerRead [(rxOldest s.ndolek)[3]] (rxPop s) else s)

/-! ## Sending (R403 to R405, R413, R416) -/

/-- The levels that the device sends as STATE: downstream those of the lines, upstream its drives and those below. -/
def sentState (s : State) (p : Port) (i : Fin 8) : Bool :=
  match p with
  | .down =>
    if isRoot s then driving s i || s.ndolek.belowState.getLsbD i.val else s.ndolek.level.getLsbD i.val
  | .up => driving s i || s.ndolek.belowState.getLsbD i.val

/-- The trigger entry of line `i` in the next frame. -/
def trigEntry (s : State) (p : Port) (i : Fin 8) : TrigEntry :=
  match (ndkTx s.ndolek p).held[i] with
  | [] => { e := 0, merged := false, rise := false, state := sentState s p i }
  | h :: _ => { e := BitVec.ofInt 28 h.e, merged := h.merged, rise := true, state := sentState s p i }

/-- A message sent on the port may still be NACKed: the next one waits, so that messages keep their order (R418).
(DEDUCED: log entry 103) -/
def msgOut (s : State) (p : Port) : Bool := (ndkTx s.ndolek p).sent.any fun x => x.msg.isSome

/-- The message of the next frame: one held for the port, or this device's own. The root's own message travels down. -/
def nextMsg (s : State) (p : Port) : Option HeldMsg :=
  if msgOut s p then none
  else
    match (ndkTx s.ndolek p).msgs with
    | m :: _ => some m
    | [] =>
      if (p == .up) != isRoot s then s.ndolek.txMsg.map fun m => { words := m, tries := 0 } else none

/-- Frame `k` on a port (R404). (DEDUCED: log entry 99) -/
def makeFrame (s : State) (p : Port) (k : Nat) : Frame :=
  let n := s.ndolek
  let t := ndkTx n p
  let stamp := BitVec.ofNat 32 (frameStamp k)
  { fseq := BitVec.ofNat 8 k
    nseq := t.nack.head?.getD 0
    nack := !t.nack.isEmpty
    lag := match p with
      | .down => if isRoot s then BitVec.ofNat 16 (live s .ndolek 0x044 0 16) else n.lagNext.getD n.lagLive
      | .up => ndkPmax n
    hop := match p with
      | .down => if isRoot s then 1 else BitVec.ofNat 6 (n.position.toNat + 1)
      | .up => 0
    frameTick := BitVec.ofNat 64 (frameTickOf k)
    trig := Vector.ofFn fun i => trigEntry s p i
    msg := (nextMsg s p).map HeldMsg.words
    echo := match p with
      | .down => n.echo
      | .up => stamp
    turn := match p with
      | .down => stamp - n.echoAt
      | .up => 0
    p := match p with
      | .down => n.p.setWidth 32
      | .up => 0 }

/-! ### The frame on the wire (R404, R405) -/

/-- A trigger entry: e in [27:0], MERGED in [29], RISE in [30], STATE in [31]. -/
def trigBits (x : TrigEntry) : Nat :=
  x.e.toNat + (if x.merged then 2 ^ 29 else 0) + (if x.rise then 2 ^ 30 else 0) + (if x.state then 2 ^ 31 else 0)

def trigOfBits (n : Nat) : TrigEntry :=
  { e := BitVec.ofNat 28 n, merged := n.testBit 29, rise := n.testBit 30, state := n.testBit 31 }

/-- Bytes 0x00 to 0x4B of a frame. -/
def frameBody (f : Frame) : List Byte :=
  leBytes 4 (f.fseq.toNat + 256 * f.nseq.toNat + (if f.nack then 2 ^ 16 else 0) + (if f.msg.isSome then 2 ^ 17 else 0) +
    0xA5 * 2 ^ 24) ++
  leBytes 4 (f.lag.toNat + 65536 * f.hop.toNat) ++ leBytes 8 f.frameTick.toNat ++
  f.trig.toList.flatMap (fun x => leBytes 4 (trigBits x)) ++
  (f.msg.getD (Vector.replicate 4 0)).toList.flatMap (fun w => leBytes 4 w.toNat) ++
  leBytes 4 f.echo.toNat ++ leBytes 4 f.turn.toNat ++ leBytes 4 f.p.toNat

/-- The 80 bytes on the wire: offsets 0x00 to 0x4B, and the CRC word at 0x4C. -/
def frameWire (body : List Byte) (crc : Word) : List Byte := body ++ leBytes 4 crc.toNat

/-- The 80 bytes of a frame, with the CRC-32 of its first 76. -/
def frameBytes (f : Frame) : List Byte := frameWire (frameBody f) (crc32 (frameBody f))

/-- The CRC of 80 bytes matches. -/
def frameCrcOk (l : List Byte) : Bool := leNat (l.drop 0x4C) == (crc32 (l.take 0x4C)).toNat

/-- The fields of 80 bytes. -/
def readFrame (l : List Byte) : Frame :=
  let part (o n : Nat) : Nat := leNat ((l.drop o).take n)
  let head := part 0x00 4
  { fseq := BitVec.ofNat 8 head, nseq := BitVec.ofNat 8 (head / 256), nack := head.testBit 16
    lag := BitVec.ofNat 16 (part 0x04 2), hop := BitVec.ofNat 6 (part 0x06 1)
    frameTick := BitVec.ofNat 64 (part 0x08 8)
    trig := Vector.ofFn fun i => trigOfBits (part (0x10 + 4 * i.val) 4)
    msg := if head.testBit 17 then some (Vector.ofFn fun i => BitVec.ofNat 32 (part (0x30 + 4 * i.val) 4)) else none
    echo := BitVec.ofNat 32 (part 0x40 4), turn := BitVec.ofNat 32 (part 0x44 4), p := BitVec.ofNat 32 (part 0x48 4) }

/-- The edges that the next frame on a port carries. -/
def frameEdges (s : State) (p : Port) : List (Fin 8 × HeldEdge) :=
  (allFin 8).filterMap fun i => ((ndkTx s.ndolek p).held[i]).head?.map fun h => (i, h)

/-- The sender after frame `k`. -/
def afterFrame (k t : Nat) (edges : List (Fin 8 × HeldEdge)) (m : Option HeldMsg) (x : NdkTx) : NdkTx :=
  { held := x.held.map List.tail
    msgs := if m.isSome then x.msgs.tail else x.msgs
    sent := (x.sent.filter fun y => y.fseq != BitVec.ofNat 8 k) ++
      [{ fseq := BitVec.ofNat 8 k, edges := edges, msg := m, frameTick := frameTickOf k }]
    nack := x.nack.tail
    lastFrame := some t }

/-- FRAME_SEND: frame k leaves at its frame tick, with the earliest edge held for each line. (DESIGN CHOICE: log entry
12) -/
def frameSend (p : Port) (s : State) : State :=
  let k := frameNo s.time.toNat
  if s.locked && sendsOn s p && frameTickOf k == s.time.toNat && (ndkTx s.ndolek p).lastFrame != some s.tick then
    let own := !msgOut s p && (ndkTx s.ndolek p).msgs.isEmpty && ((p == .up) != isRoot s)
    let s1 := s.modOut fun o => { o with frames := o.frames ++ [(p, frameBytes (makeFrame s p k))] }
    let s2 := s1.modTx p (afterFrame k s.tick (frameEdges s p) (nextMsg s p))
    if own then
      match s.ndolek.txMsg with
      | some m =>
        let s3 := s2.modNdk fun n => { n with txMsg := none }
        if isRoot s && !msgBroadcast m && msgDest m == ndkDevice s.ndolek then msgAccept m s3 else s3
      | none => s2
    else s2
  else s

/-- (DESIGN CHOICE: log entry 3) -/
def execFrameSend (port : Port) (s : State) : Ret := .next (frameSend port s)

/-! ## NACKs and resends (R416, R417) -/

/-- NDK_CFG.RETRY. -/
def ndkRetry (s : State) : Nat := live s .ndolek 0x040 0 2

/-- The number of resends behind a frame. -/
def frameTries (x : SentFrame) : Nat :=
  max ((x.edges.map fun e => e.2.tries).foldl max 0) ((x.msg.map HeldMsg.tries).getD 0)

/-- The frame was empty, so that nothing of it is sent again. -/
def frameEmpty (x : SentFrame) : Bool := x.edges.isEmpty && x.msg.isNone

/-- What a NACKed frame carried is sent again, but for what has been resent RETRY times. (DESIGN CHOICE: log entry 98;
DEDUCED: log entry 100) -/
def resend (p : Port) (x : SentFrame) (s : State) : State :=
  let r := ndkRetry s
  let s1 := s.each (x.edges.filter fun e => decide (e.2.tries < r)) fun e s =>
    holdEdge p e.1 { e.2 with tries := e.2.tries + 1 } s
  let s2 := match x.msg with
    | some m =>
      if m.tries < r then
        s1.modTx p fun t => { t with msgs := { m with tries := m.tries + 1 } :: t.msgs }
      else s1
    | none => s1
  if !frameEmpty x && decide (r ≤ frameTries x) then
    detect (setEvt (s2.modNdk fun n => { n with lost := n.lost + 1 }) .ndolek evtLost) .ndolek (portUnit p) 0x82 r
      clsLasting
  else s2

/-- A NACK of frame `q` reaches the sender of a port. (DEDUCED: log entry 100) -/
def nackArrives (p : Port) (q : BitVec 8) (s : State) : State :=
  match (ndkTx s.ndolek p).sent.find? fun x => x.fseq == q with
  | some x => resend p x (s.modTx p fun t => { t with sent := t.sent.filter fun y => y.fseq != q })
  | none => s

/-- A resend has succeeded. (DESIGN CHOICE: log entry 98) -/
def resendDone (p : Port) (x : SentFrame) (s : State) : State :=
  if frameTries x = 0 then s
  else
    let w := s.tick / 160000
    let s1 := s.modNdk fun n => { n with retx := n.retx + 1, retxWin := some w }
    if s.ndolek.retxWin = some w then s1 else detect s1 .ndolek (portUnit p) 0x82 (frameTries x) clsTransient

/-- The ticks that a frame needs to reach the device at the other end and be checked: R415's cost of a hop, by the
cable's own delay upwards, and downwards by what PMAX leaves for the hop below. (DEDUCED: log entry 100) -/
def hopTicks (n : Ndolek) (p : Port) : Nat :=
  match p with
  | .up => 41 + (n.delay.toNat + 63) / 64
  | .down => max 41 (n.pmaxBelow.toNat - n.p.toNat)

/-- A good frame without a NACK, which left the other end after a frame sent had arrived there, shows that nothing of
that frame is missing: it leaves the sender's record. (DEDUCED: log entry 100) -/
def settleSent (p : Port) (f : Frame) (s : State) : State :=
  if f.nack then s
  else
    let done := fun (x : SentFrame) => decide (x.frameTick + hopTicks s.ndolek p ≤ f.frameTick.toNat)
    let l := (ndkTx s.ndolek p).sent.filter done
    let s1 := s.modTx p fun t => { t with sent := t.sent.filter fun x => !done x }
    s1.each l (resendDone p)

/-! ## Ports (R411) -/

/-- A port goes down. (DEDUCED: log entries 103, 104) -/
def portDown (p : Port) (s : State) : State :=
  if !portLink s.ndolek p then s
  else
    let s1 := s.modNdk fun n =>
      match p with
      | .up =>
        { n with
          upLink := false, rxSeqUp := none, badUp := 0, goodRun := 0, stepTo := none
          state := if n.state = .root then n.state else .holdover }
      | .down => { n with
        downLink := false, rxSeqDown := none, badDown := 0, pmaxBelow := 0, belowState := 0, belowDone := 0 }
    let s2 := s1.modTx p fun t => { t with sent := [], nack := [] }
    detect (setEvt s2 .ndolek evtLinkLost) .ndolek (portUnit p) 0x80 0 clsLasting

/-- (DEDUCED: log entry 104) -/
def execLinkLost (port : Port) (s : State) : Ret := .next (if s.power.powered then portDown port s else s)

/-- PORT_LINK_UP: a port reaches block lock; a device that is no root measures and aligns again. -/
def portLinkUp (p : Port) (s : State) : State :=
  if portLink s.ndolek p then s
  else
    let s1 := s.modNdk fun n =>
      match p with
      | .up =>
        { n with
          upLink := true, goodRun := 0, measured := false, probeSum := 0, probeCnt := 0, lastEcho := 0
          stepTo := none, state := if n.state = .root then n.state else .linking }
      | .down => { n with downLink := true }
    setEvt s1 .ndolek evtLinkUp

def execPortLinkUp (port : Port) (s : State) : Ret := .next (if s.power.powered then portLinkUp port s else s)

/-! ## Receiving (R402, R406 to R409, R413, R414, R416) -/

/-- The value of `e` modulo 2^28 nearest to 16 × the present system time (R405). -/
def extendEdge (now : Nat) (e : BitVec 28) : Int :=
  let base : Int := (now : Int) - (now % 2 ^ 28 : Nat) + e.toNat
  if now + 2 ^ 27 < base then base - 2 ^ 28
  else if base + 2 ^ 27 ≤ now then base + 2 ^ 28
  else base

/-- The numbers of frames missing between the last one received and `q`. (DEDUCED: log entry 100) -/
def missing (last : Option (BitVec 8)) (q : BitVec 8) : List (BitVec 8) :=
  match last with
  | none => []
  | some l => (List.range (q - l - 1).toNat).map fun k => l + 1 + BitVec.ofNat 8 k

/-- The receive state of a port after a frame: its sequence number and the run of bad frames. -/
def noteFrame (p : Port) (seq : Option (BitVec 8)) (bad : Nat) (n : Ndolek) : Ndolek :=
  match p with
  | .up => { n with rxSeqUp := seq, badUp := bad }
  | .down => { n with rxSeqDown := seq, badDown := bad }

def rxSeq (n : Ndolek) (p : Port) : Option (BitVec 8) :=
  match p with
  | .up => n.rxSeqUp
  | .down => n.rxSeqDown

/-- (DEDUCED: log entry 119) -/
def rxBad (n : Ndolek) (p : Port) : Nat :=
  match p with
  | .up => n.badUp
  | .down => n.badDown

def crcCount (p : Port) (n : Ndolek) : Ndolek :=
  match p with
  | .up => { n with crcUp := n.crcUp + 1 }
  | .down => { n with crcDown := n.crcDown + 1 }

/-- A frame with a bad CRC: counted, NACKed by the number it should have had, and not used; with 64 in a row the port
goes down. (DEDUCED: log entry 119) -/
def badFrame (p : Port) (s : State) : State :=
  let want := (rxSeq s.ndolek p).map (· + 1)
  let bad := rxBad s.ndolek p + 1
  let s1 := s.modNdk fun n => noteFrame p want bad (crcCount p n)
  let s2 := match want with
    | some q => s1.modTx p fun t => { t with nack := t.nack ++ [q] }
    | none => s1
  if 64 ≤ bad then portDown p s2 else s2

/-- The cable delay after one probe (R406): d is the mean over 256 probes. -/
def takeProbe (f : Frame) (arrival : BitVec 32) (trim : Int) (n : Ndolek) : Ndolek :=
  if f.echo = n.lastEcho then n
  else
    let rt := (arrival - f.echo - f.turn).toInt
    let sum := n.probeSum + Int.fdiv rt 2 + trim
    if n.probeCnt + 1 = 256 then
      { n with
        lastEcho := f.echo, probeSum := 0, probeCnt := 0, measured := true
        delay := BitVec.ofInt 16 (Int.fdiv sum 256) }
    else { n with lastEcho := f.echo, probeSum := sum, probeCnt := n.probeCnt + 1 }

/-- NDK_TRIM. -/
def ndkTrim (s : State) : Int := (BitVec.ofNat 16 (live s .ndolek 0x048 0 16)).toInt

/-- The error of system time in 1/64 tick against a downstream frame that should arrive at 20.48 × k + d. (DEDUCED:
log entry 101) -/
def timeError (s : State) (f : Frame) (arrival : BitVec 32) : Int :=
  let now := 64 * s.time.toNat
  let at_ : Int := (now : Int) + (arrival - BitVec.ofNat 32 now).toInt
  at_ - ((frameStamp (frameNo f.frameTick.toNat) : Int) + (s.ndolek.delay.toNat : Int))

/-- The whole ticks of an error, rounded to the nearest; 0 below one tick. -/
def wholeTicks (err : Int) : Int := if err.natAbs < 64 then 0 else Int.fdiv (err + 32) 64

/-- The timing of a good downstream frame (R406 to R409, R415): NDK_PHASE is what remains of the error beside whole
ticks, which a step takes away. (DEDUCED: log entry 101) -/
def takeTiming (f : Frame) (arrival : BitVec 32) (s : State) : State :=
  let s1 := s.modNdk (takeProbe f arrival (ndkTrim s))
  let err := timeError s1 f arrival
  let ticks := wholeTicks err
  let phase := err - 64 * ticks
  s1.modNdk fun n =>
    { n with
      lagNext := some f.lag, hub := f.hop == 0
      p := BitVec.ofNat 16 (f.p.toNat + 41 + (n.delay.toNat + 63) / 64)
      phase := if n.measured then BitVec.ofInt 16 phase else n.phase
      superBad := n.superBad || (n.measured && decide (4 < phase.natAbs))
      stepTo := if n.measured && ticks != 0 then some (-ticks) else none }

/-- The STATE bits of a frame. -/
def frameLevels (f : Frame) : BitVec 8 :=
  (allFin 8).foldl (fun m i => if f.trig[i].state then m ||| ((1 : BitVec 8) <<< i.val) else m) 0

/-- The edges of a frame, in line order. -/
def framesRises (f : Frame) : List (Fin 8 × TrigEntry) :=
  (allFin 8).filterMap fun i => if f.trig[i].rise then some (i, f.trig[i]) else none

/-- An edge from above is raised here and goes on down. -/
def edgeFromAbove (x : Fin 8 × TrigEntry) (s : State) : State :=
  let e := extendEdge (16 * s.time.toNat) x.2.e
  let s1 := edgeArrives x.1 e s
  if s1.ndolek.everAligned then holdEdge .down x.1 { e := e, merged := x.2.merged, tries := 0 } s1 else s1

/-- The device drove line `i` at time `e`, in 1/16 tick. (DESIGN CHOICE: log entry 102) -/
def droveAt (n : Ndolek) (i : Fin 8) (e : Int) : Bool :=
  match n.drove[i] with
  | some x => decide ((16 * x.1 : Nat) ≤ e) && decide (e < (16 * x.2 : Nat))
  | none => false

/-- An edge from below goes on up, or into the root's OR. At the root it is an edge of the OR unless the root drove
the line then. Where an edge already accounts for the high level that the frames from below have shown, they do not
say whether the line was low between the two, and a free value decides. (DESIGN CHOICE: log entry 102) -/
def edgeFromBelow (x : Fin 8 × TrigEntry) (s0 : State) : State :=
  let e := extendEdge (16 * s0.time.toNat) x.2.e
  let known := s0.ndolek.belowDone.getLsbD x.1.val
  let s := if known && isRoot s0 then takeFree s0 else s0
  let low := !droveAt s.ndolek x.1 e && (!known || (freeNow s0).getLsbD 0)
  (upwardEdge x.1 { e := e, merged := x.2.merged, tries := 0 } low s).modNdk fun n =>
    { n with belowDone := n.belowDone ||| ((1 : BitVec 8) <<< x.1.val) }

/-- A device in LINKING joins with its first good downstream frame, unless HOP is 32 or above (R402). (DEDUCED: log
entry 119) -/
def join (f : Frame) (n : Ndolek) : Ndolek :=
  if n.state ≠ .linking ∨ n.long then n
  else if 32 ≤ f.hop.toNat then { n with long := true }
  else
    { n with
      state := .measuring, joined := true
      position := if n.joined then n.position else f.hop.setWidth 5 }

/-- A good downstream frame is used. -/
def useDownstream (f : Frame) (arrival : BitVec 32) (s : State) : State :=
  let s1 := s.modNdk (join f)
  if isRoot s ∨ s1.ndolek.state = .linking then s1
  else
    let s3 := (takeTiming f arrival s1).modNdk fun n => { n with level := frameLevels f }
    let s4 := s3.each (framesRises f) edgeFromAbove
    match f.msg with
    | some m => msgDownward m s4
    | none => s4

/-- A good upstream frame is used; a device that has not joined forwards nothing (R402). -/
def useUpstream (f : Frame) (arrival : BitVec 32) (s : State) : State :=
  let s1 := s.modNdk fun n =>
    { n with pmaxBelow := f.lag, echo := f.echo, echoAt := arrival, belowState := frameLevels f }
  if s.ndolek.long then s1
  else
    let s2 := (s1.each (framesRises f) edgeFromBelow).modNdk fun n => { n with
      belowDone := n.belowDone &&& n.belowState }
    match f.msg with
    | some m => msgUpward m s2
    | none => s2

/-- A frame arrives at a port; `arrival` is stamped by the timebase as it would run unsteered, in 1/64 tick. (DEDUCED:
log entry 101) -/
def frameReceive (p : Port) (l : List Byte) (arrival : BitVec 32) (s : State) : State :=
  if !(s.locked && portLink s.ndolek p) then s
  else if !frameCrcOk l then badFrame p s
  else
    let f := readFrame l
    let at_ := arrival + BitVec.ofInt 32 s.ndolek.steer
    let gap := missing (rxSeq s.ndolek p) f.fseq
    let s1 := s.modNdk (noteFrame p (some f.fseq) 0)
    let s2 := s1.modTx p fun t => { t with nack := t.nack ++ gap }
    let s3 := if f.nack then nackArrives p f.nseq s2 else s2
    let s4 := settleSent p f s3
    match p with
    | .up => useDownstream f at_ s4
    | .down => useUpstream f at_ s4

/-- (DEDUCED: log entry 13) -/
def execFrameReceive (port : Port) (body : List Byte) (crc : Word) (arrival : BitVec 26) (frac : BitVec 6) (s : State) :
    Ret :=
  if body.length = 76 then .next (frameReceive port (frameWire body crc) (arrival ++ frac) s) else .fault .illFormed

/-! ## Super-periods (R403, R409, R410, R415) -/

/-- The value of NDK_TIME_LOAD, with bits [8:0] taken as 0. -/
def timeLoad (s : State) : Time :=
  let w : BitVec 64 := (liveWord s .ndolek 0x054) ++ (liveWord s .ndolek 0x050)
  w &&& ~~~(0x1FF : BitVec 64)

/-- The tick at which a folio is due, where system time moves from `old` past it to `new`. (DEDUCED: log entry 101) -/
def dueMoved (old new : Nat) (x : Folio) : Folio :=
  if old < x.dueAt ∧ x.dueAt < new then { x with dueAt := new } else x

/-- A reset, or a switch-on, that waits for a frame boundary from a tick on waits for the first one of the new time.
(DEDUCED: log entry 101) -/
def rstMoved (s : State) (m : Mgmt) : Mgmt := { m with rstTick := max m.rstTick (s.tick - 16) }
/-- (DEDUCED: log entry 101) -/
def switchMoved (s : State) (p : Power) : Power :=
  { p with current := p.current.map fun x => if x.2.1 then (x.1, true, max x.2.2 (s.tick - 1600)) else x }

/-- System time takes a new value; what a folio was to do at a time that is skipped is due at once. (DEDUCED: log
entry 101) -/
def setTime (t : Time) (s : State) : State :=
  { s with
    time := t, mgmt := rstMoved s s.mgmt, power := switchMoved s s.power
    archive := { s.archive with folios := s.archive.folios.map (dueMoved s.time.toNat t.toNat) } }

/-- System time steps by `d` ticks (R409). (DEDUCED: log entry 101) -/
def stepTime (d : Int) (s : State) : State :=
  let s1 := setTime (s.time + BitVec.ofInt 64 d) s
  let s2 := setEvt (s1.modNdk fun n => { n with step := BitVec.ofInt 64 d, stepTo := none }) .ndolek evtTimeStep
  if s.ndolek.everAligned then detect s2 .ndolek 0 0x81 0 clsLasting else s2

/-- ARC_NDK_LAG takes the LAG in force (R414). (DEDUCED: log entry 83) -/
def lagShown (s : State) : State :=
  if archiveOn s then s.modArchive fun a => { a with ndkLag := s.ndolek.lagLive } else s

/-- A super-period begins at the root: its LAG and a load of system time take effect. -/
def superRoot (s : State) : State :=
  let lag := BitVec.ofNat 16 (live s .ndolek 0x044 0 16)
  let s1 := lagShown (s.modNdk fun n =>
    { n with lagLive := lag, lagMin := BitVec.ofNat 16 (2 * (ndkPmax n).toNat + 103), loadReq := false })
  if s.ndolek.loadReq then setTime (timeLoad s) s1 else s1

/-- 64 whole super-periods in a row with a small phase error align the device (R407). (DEDUCED: log entry 101) -/
def tryAlign (s : State) : State :=
  if s.ndolek.state = .measuring ∧ 64 ≤ s.ndolek.goodRun then
    setEvt (s.modNdk fun n => { n with state := .aligned, everAligned := true }) .ndolek evtAligned
  else s

/-- The super-period that ends has been measured whole, with every phase error small. (DEDUCED: log entry 101) -/
def superGood (n : Ndolek) : Bool :=
  n.state == .measuring && n.superWhole && !n.superBad && n.stepTo.isNone && decide (n.phase.toInt.natAbs ≤ 4)

/-- The device steers its timebase, except in HOLDOVER (R409, R411). (DEDUCED: log entry 101) -/
def steers (n : Ndolek) : Bool := n.measured && (n.state == .measuring || n.state == .aligned)

/-- A super-period begins at another device: a received LAG, a slew by 1/64 tick against the phase error, and a step
take effect. (DEDUCED: log entry 101) -/
def superOther (s : State) : State :=
  let s1 := lagShown (s.modNdk fun n =>
    { n with
      lagLive := n.lagNext.getD n.lagLive, lagNext := none
      goodRun := if superGood n then n.goodRun + 1 else 0
      superWhole := n.measured && n.state == .measuring, superBad := false
      steer := if steers n then n.steer - n.phase.toInt.sign else n.steer })
  let s2 := tryAlign s1
  match s.ndolek.stepTo with
  | some d => stepTime d s2
  | none => s2

/-- SUPER_PERIOD: at system times that are multiples of 512. -/
def superPeriod (s : State) : State :=
  if onMult s 512 && s.ndolek.lastSuper != some s.tick then
    let s1 := s.modNdk fun n => { n with lastSuper := some s.tick }
    if isRoot s then superRoot s1 else superOther s1
  else s

/-- (DESIGN CHOICE: log entry 3) -/
def execSuperPeriod (s : State) : Ret := .next (superPeriod s)

/-- NDK_LOAD: on the root a load of system time waits for the next super-period. -/
def ndkLoad (s : State) : State := if isRoot s then s.modNdk fun n => { n with loadReq := true } else s

def execNdkLoad (s : State) : Ret := .next (request .ndolek 0x058 .write ndkLoad s)

end Sys2Proof.Machine
end

