-- ==== Sys2Proof/Machine/Faults.lean ====
section
/-! DEFINITION. The fault log and the resets (chapter 17, R424 to R433, R448). -/

namespace Sys2Proof.Machine

/-! ## The fault log (R424 to R428) -/

/-- FAULT_T, FAULT_L and FAULT_N of the device page, by class (R427). -/
def classEvt (cls : BitVec 2) : Nat := if cls = 0 then 1 else if cls = 1 then 2 else 5

def evtLogLost : Nat := 3
def evtResetDone : Nat := 4

/-- Of two detections of one tick the log takes that of the lower source page first, then that of the lower code
(R428). (DESIGN CHOICE: log entry 106) -/
def logBefore (a b : LogEntry) : Bool :=
  decide (a.page.toNat < b.page.toNat) || (a.page == b.page && decide (a.code.toNat < b.code.toNat))

/-- The detection that the log takes next, and those that stay: the oldest tick first. (DESIGN CHOICE: log entry 106)
-/
def logNext (l : List (Nat × LogEntry)) : Option (Nat × LogEntry) :=
  l.foldl
    (fun best x =>
      match best with
      | none => some x
      | some y => if x.1 == y.1 && logBefore x.2 y.2 then some x else some y)
    none

/-- A list without the first entry that equals `x`. -/
def dropFirst (x : Nat × LogEntry) (l : List (Nat × LogEntry)) : List (Nat × LogEntry) := l.erase x

/-- The log with entry number `seq`. -/
def logPut (x : LogEntry) (m : Mgmt) : Mgmt :=
  let e := { x with seq := m.fltSeq.setWidth 16 }
  let slot : Fin 256 := ⟨m.fltSeq.toNat % 256, Nat.mod_lt _ (by decide)⟩
  { m with
    log := vset m.log slot e
    fltSeq := m.fltSeq + 1
    nTrans := if x.cls = 0 then m.nTrans + 1 else m.nTrans
    nLasting := if x.cls = 1 then m.nLasting + 1 else m.nLasting
    nNotice := if x.cls = 2 then m.nNotice + 1 else m.nNotice
    first := if x.cls = 1 ∧ !m.firstValid then e else m.first
    firstValid := m.firstValid || x.cls == 1 }

/-- The entry that the next one overwrites has not been read (R426). -/
def logFull (m : Mgmt) : Bool := decide (256 ≤ (m.fltSeq - m.fltAck).toNat)

/-- The log takes an entry. -/
def logTake (x : LogEntry) (s : State) : State :=
  let s1 :=
    if logFull s.mgmt then setEvt (s.modMgmt fun m => { m with fltLost := m.fltLost + 1 }) .device evtLogLost else s
  setEvt (s1.modMgmt (logPut x)) .device (classEvt x.cls)

/-- FAULT_LOG_ENTRY: the log takes the next detection, in a later tick than the one that decided it. (DESIGN CHOICE:
log entry 106) -/
def faultLogEntry (s : State) : State :=
  match logNext s.mgmt.detected with
  | some x =>
    if s.power.powered && (after s x.1 || !s.locked) then
      logTake x.2 (s.modMgmt fun m => { m with detected := dropFirst x m.detected })
    else s
  | none => s

def execFaultLogEntry (s : State) : Ret := .next (faultLogEntry s)

/-- A write of FLT_ACK takes effect only for an entry number in the log (R426). -/
def fltAck (w : Word) (s : State) : State :=
  if (s.mgmt.fltSeq - w).toNat ≤ 256 then s.modMgmt fun m => { m with fltAck := w } else s

def execFltAckWrite (w : Word) (s : State) : Ret := .next (request .device 0x084 .write (fltAck w) s)

/-- FLT_CTL.REARM (R427). -/
def fltRearm (s : State) : State := s.modMgmt fun m => { m with firstValid := false }

def execFltRearm (s : State) : Ret := .next (request .device 0x098 .write fltRearm s)

/-! ## The state of a domain that comes up -/

/-- The pages of a bay (R26). -/
def bayPages (b : BayNo) : List Page := [.bay b, .catalogue b, .sash b, .shelf b] ++ (bayChans b).map Page.channel

/-- The pages of PD3. -/
def corePages : List Page :=
  [.transom, .archive, .lintel] ++ (allFin 4).map Page.line ++ (allFin 8).map Page.folio

def pagesReset (l : List Page) (s : State) : State := s.each l fun p s => pageReset p [] s

/-- The store holds pairs that the load of power-up has put there and that may not apply before it completes (R269). -/
def coefsWait (s : State) : Bool := s.acc.op == .load && s.acc.bootLoad && s.acc.picked

/-- The coefficients of a channel as its bay comes up, at a frame boundary (R269), or is reset: then they follow at
the first frame boundary after the reset (R433). (DEDUCED: log entry 56) -/
def coefsUp (s : State) (g : ChanNo) (rst : Bool) : Coefs :=
  if rst || coefsWait s then Coefs.reset else (s.acc.chans[g]).coefs

/-- The next frame boundary. -/
def nextFrame (s : State) : Time := BitVec.ofNat 64 ((s.time.toNat / 80 + 1) * 80)

/-- A channel whose domain comes up or whose bay is reset; what Lintel holds for it follows R499. (DEDUCED: log entry
56) -/
def chanTake (rst : Bool) (g : ChanNo) (s : State) : State :=
  s.modChan g fun c =>
    { Chan.reset with
      coefs := coefsUp s g rst, coefLoad := if rst && !coefsWait s then some (s.tick + 1) else none
      lintel := c.lintel, lintelNew := c.lintelNew, power := c.power
      meas := { Meas.reset with prec := { Prec.reset with restart := some (nextFrame s, 0) } } }

/-- Every block of a bay takes its reset state, as its domain comes up or at a bay reset. (DEDUCED: log entries 61,
70) -/
def bayTake (rst : Bool) (b : BayNo) (s : State) : State :=
  let s1 := (pagesReset (bayPages b) s).modBay b fun _ => { Bay.reset with speedFrom := s.tick }
  s1.each (bayChans b) (chanTake rst)

/-- The retry of a Catalogue that a reset or a switch-off abandons, with the pairs judged before the one that pends
(R421, R432). -/
def catAbandon (b : BayNo) (s : State) : State :=
  if (s.bay b).cat.retryPairs ≠ 0 then
    detectFull (s.modCat b fun c => { c with retryPairs := 0 }) (.catalogue b) 0 0x30
      ((s.bay b).cat.retryPairs - 1) clsLasting true
  else s

/-- Retries and runs of a bay that a reset or a switch-off cuts short (R258, R432, R433). -/
def bayCut (b : BayNo) (s : State) : State := catAbandon b (accBayOff b s)

/-- Recording folios that store a stream of the bay end with cause 3 (R433). -/
def bayFoliosEnd (b : BayNo) (s : State) : State := folioEndWhere (fun x => recording x && storesBay b x) 3 s

/-- Close cause 0x0 asserts for every channel of a bay. -/
def bayClose (b : BayNo) (s : State) : State := s.each (bayChans b) fun g s => closeTick s g 0

/-- The blocks of PD3 take their reset state, but for Lintel's limits on the channels. -/
def coreTake (s : State) : State :=
  { pagesReset corePages s with transom := Transom.reset, archive := Archive.reset }

/-! ## DEV_RST (R429 to R433, R448) -/

/-- The domain of a DEV_RST bit. -/
def rstDomain (k : Fin 19) : Fin 20 :=
  if h : k.val < 16 then bayDomain ⟨k.val, h⟩ else if k.val = 16 then 3 else if k.val = 17 then 2 else 1

/-- What a reset of one target does at the tick of the write. -/
def rstStart (k : Fin 19) (s : State) : State :=
  if h : k.val < 16 then bayFoliosEnd ⟨k.val, h⟩ (bayClose ⟨k.val, h⟩ s) else s

/-- What a reset of one target does at its frame boundary. -/
def rstFinish (k : Fin 19) (s : State) : State :=
  if h : k.val < 16 then
    lintelBayOn ⟨k.val, h⟩ (bayTake true ⟨k.val, h⟩ (lintelBayOff ⟨k.val, h⟩ (bayCut ⟨k.val, h⟩ s)))
  else if k.val = 16 then lintelOn (coreTake (accRunOff s))
  else if k.val = 17 then stacksOn (pageReset .stk [] (stacksReset s))
  else dmaResetAll s

/-- The bits of a DEV_RST word, in ascending order. (DEDUCED: log entry 107) -/
def rstBits (w : BitVec 19) : List (Fin 19) := (allFin 19).filter fun k => w.getLsbD k.val

/-- A write of DEV_RST: bits of a domain that is off or switching complete at once and change nothing. (DEDUCED: log
entry 107) -/
def devRst (w : BitVec 19) (s : State) : State :=
  let bits := rstBits w
  let live := bits.filter fun k => domUp s (rstDomain k)
  if live.isEmpty then (if bits.isEmpty then s else setEvt s .device evtResetDone)
  else
    let new := live.filter fun k => !s.mgmt.rst.getLsbD k.val
    let s1 := s.modMgmt fun m =>
      { m with
        rst := live.foldl (fun r k => r ||| ((1 : BitVec 19) <<< k.val)) m.rst
        rstTick := if m.rst = 0 then s.tick else m.rstTick }
    s1.each new rstStart

def execBayReset (b : BayNo) (s : State) : Ret :=
  .next (request .device 0x0B0 .write (devRst ((1 : BitVec 19) <<< b.val)) s)

def execCoreReset (s : State) : Ret := .next (request .device 0x0B0 .write (devRst 0x10000) s)

def execMemoryReset (s : State) : Ret := .next (request .device 0x0B0 .write (devRst 0x20000) s)

def execDmaReset (s : State) : Ret := .next (request .device 0x0B0 .write (devRst 0x40000) s)

/-- The present tick is the first frame boundary at least 16 ticks after the write. (DEDUCED: log entry 107) -/
def rstDue (s : State) : Bool :=
  s.mgmt.rst != 0 && onFrame s && decide (s.mgmt.rstTick + 16 ≤ s.tick) && decide (s.tick < s.mgmt.rstTick + 96)

/-- RESET_DONE: every target of the reset that is up takes its reset state together. -/
def resetDone (s : State) : State :=
  if rstDue s then
    let s1 := s.each ((rstBits s.mgmt.rst).filter fun k => domUp s (rstDomain k)) rstFinish
    setEvt (s1.modMgmt fun m => { m with rst := 0 }) .device evtResetDone
  else s

def execResetDone (s : State) : Ret := .next (resetDone s)

end Sys2Proof.Machine
end

