-- ==== Sys2Proof/Machine/Power.lean ====
section
/-! DEFINITION. Supplies, device power-up, the domain sequencer and the boot loader's record (chapter 18). -/

namespace Sys2Proof.Machine

/-! ## The domain sequencer (R445 to R449) -/

/-- The domain is on once the switch in progress has completed. -/
def domOn (p : Power) (d : Fin 20) : Bool :=
  match p.current with
  | some (c, on, _) => if c = d then on else p.up.getLsbD d.val
  | none => p.up.getLsbD d.val

/-- Every domain whose request differs from its state, in ascending number. -/
def pdQueue (p : Power) : List (Fin 20) :=
  (allFin 20).filter fun d => decide (2 ≤ d.val) && p.ctl.getLsbD d.val != domOn p d

/-- The sequencer has no switch to begin, but for one that waits for VANA. (DEDUCED: log entry 109) -/
def pdIdle (p : Power) : Bool := p.current.isNone && (p.queue.isEmpty || p.held)

/-- A write of DEV_PD_CTL: every domain that differs is queued, and one that no longer differs leaves the queue.
(DEDUCED: log entry 109) -/
def pdCtl (w : Word) (s : State) : State :=
  s.modPower fun p =>
    let p1 := { p with ctl := (w.extractLsb' 0 20) ||| 3 }
    let q := pdQueue p1
    { p1 with
      queue := q
      queueTick := if pdIdle p then (if s.locked then s.tick + 1 else s.tick) else p.queueTick
      held := p.held && q.head? == p.queue.head? }

def execPdCtlWrite (w : Word) (s : State) : Ret := .next (request .device 0x0C0 .write (pdCtl w) s)

def evtPdDone : Nat := 6
def evtBootDone : Nat := 8

/-- The next queued switch, when its tick has come: its domain, and whether it switches on. (DEDUCED: log entry 109)
-/
def pdNext (s : State) : Option (Fin 20 × Bool) :=
  if s.power.powered && s.locked && s.power.current.isNone && s.power.queueTick == s.tick then
    s.power.queue.head?.map fun d => (d, s.power.ctl.getLsbD d.val)
  else none

/-- A switch begins at the present tick. -/
def pdBegin (d : Fin 20) (on : Bool) (s : State) : State :=
  s.modPower fun p => { p with
    current := some (d, on, s.tick), opened := false, held := false, queue := p.queue.drop 1 }

/-- PD_SWITCH_ON_START: a switch-on begins, or waits while VANA is out of range. (DEDUCED: log entry 109) -/
def pdSwitchOnStart (s : State) : State :=
  match pdNext s with
  | some (d, true) =>
    if 4 ≤ d.val ∧ !s.power.vana then s.modPower fun p => { p with held := true } else pdBegin d true s
  | _ => s

def execPdSwitchOnStart (s : State) : Ret := .next (pdSwitchOnStart s)

/-- The bay of a domain, if it is one. -/
def domainBay (d : Fin 20) : Option BayNo := if h : 4 ≤ d.val then some ⟨d.val - 4, by omega⟩ else none

/-- Every block of a domain that comes up takes its reset state. -/
def domainUpTake (d : Fin 20) (s : State) : State :=
  match domainBay d with
  | some b => lintelBayOn b (bayTake false b s)
  | none =>
    if d = 3 then lintelOn (coreTake s)
    else if d = 2 then stacksOn (pageReset .stk [] (stacksReset s))
    else s

/-- Codex playback stops, since every read returns poison (R120, R449). -/
def codexStop (s : State) : State :=
  s.each ((allFin 512).filter fun g => bayUp s (bayOf g) && (s.chan g).prog.running && srcSel s g == 2) progFault

/-- What the other blocks do as a domain switches off (R447, R449). (DEDUCED: log entry 108) -/
def domainOff (d : Fin 20) (s : State) : State :=
  match domainBay d with
  | some b => lintelBayOff b (bayClose b (bayCut b (bayFoliosEnd b s)))
  | none =>
    if d = 3 then lintelOff (coreTake (accRunOff s))
    else if d = 2 then pageReset .stk [] (stacksReset (codexStop (folioEndWhere recording 4 s)))
    else s

/-- The boot loader goes on once every switch of its write has completed (R453). (DEDUCED: log entry 110) -/
def bootAdvance (s : State) : State :=
  if s.power.bootState = 3 ∧ s.locked ∧ s.power.current = none ∧ s.power.queue = [] then
    if s.power.preload.isEmpty then setEvt (s.modPower fun p => { p with bootState := 5 }) .device evtBootDone
    else s.modPower fun p => { p with bootState := 4 }
  else s

/-- A switch has completed, and the next one may begin. -/
def pdCompleted (s : State) : State :=
  bootAdvance (setEvt (s.modPower fun p => { p with current := none, queueTick := s.tick }) .device evtPdDone)

/-- PD_DONE: at the first frame boundary at or after t + 1,600 of a switch-on, isolation is released. -/
def pdDone (s : State) : State :=
  match s.power.current with
  | some (d, true, t) =>
    if onFrame s && decide (t + 1600 ≤ s.tick) && decide (s.tick < t + 1680) then
      pdCompleted (domainUpTake d (s.modPower fun p => { p with up := p.up ||| ((1 : BitVec 20) <<< d.val) }))
    else s
  | _ => s

def execPdDone (s : State) : Ret := .next (pdDone s)

/-- PD_SWITCH_OFF_START: UP becomes 0 at tick t. (DEDUCED: log entry 108) -/
def pdSwitchOffStart (s : State) : State :=
  match pdNext s with
  | some (d, false) =>
    domainOff d ((pdBegin d false s).modPower fun p => { p with up := p.up &&& ~~~((1 : BitVec 20) <<< d.val) })
  | _ => s

def execPdSwitchOffStart (s : State) : Ret := .next (pdSwitchOffStart s)

/-- PD_POWER_OPEN: at t + 32 of a switch-off the domain's state is lost. (DEDUCED: log entry 108) -/
def pdPowerOpen (s : State) : State :=
  match s.power.current with
  | some (d, false, t) =>
    if sinceIs s t 32 && !s.power.opened then
      let s1 := s.modPower fun p => { p with opened := true }
      match domainBay d with
      | some b => bayTake false b s1
      | none => s1
    else s
  | _ => s

def execPdPowerOpen (s : State) : Ret := .next (pdPowerOpen s)

/-- PD_SWITCH_OFF_DONE: t + 1,600 of a switch-off. -/
def pdSwitchOffDone (s : State) : State :=
  match s.power.current with
  | some (_, false, t) => if sinceIs s t 1600 then pdCompleted s else s
  | _ => s

def execPdSwitchOffDone (s : State) : Ret := .next (pdSwitchOffDone s)

/-! ## Device power-up (R441, R442, R450, R468) -/

/-- DEVICE_POWER_UP: the straps are sampled, PD0 and PD1 come up, and the boot loader begins discovery. (DEDUCED: log
entry 110) -/
def devicePowerUp (straps : Straps) (flash : Option FlashParams) (s : State) : State :=
  if !s.power.powered && s.power.vio then
    let s1 := s.modPower fun p => { p with powered := true, bootState := 1 }
    let s2 := s1.modFlash fun f => { f with params := flash, use := if flash.isSome then .boot else .free }
    s2.modNdk fun n => { n with straps := straps }
  else s

/-- (DEDUCED: log entry 13) -/
def execDevicePowerUp (straps : Straps) (flash : Option FlashParams) (s : State) : Ret :=
  if (flash.map wfFlash).getD true then .next (devicePowerUp straps flash s) else .fault .illFormed

/-- A flash operation that writes is cut short as power fails: what it names is open (R267, R369). -/
def flashPowerCut (s : State) : State :=
  match s.flash.use with
  | .journal => if s.acc.op = .store then storePowerCut s else s
  | .cache => cacheCut s
  | .host ctl addr => flFailed s ctl addr
  | .free | .boot => s

/-- Power-up reset: every domain loses its state. The supplies, the pins, the content of the flash and what has left
the device stay as they are. (DESIGN CHOICE: log entries 8, 67; DEDUCED: log entry 111) -/
def coldState (s : State) : State :=
  { State.reset with
    pending := s.pending, free := s.free, out := s.out
    power :=
      { Power.reset with
        vio := s.power.vio, vcore := s.power.vcore, vddq := s.power.vddq, vana := s.power.vana, rails := s.power.rails }
    flash := { Flash.reset with bytes := s.flash.bytes }
    host := { HostLink.reset with perst := s.host.perst }
    stk := { Stacks.reset with dimms := s.stk.dimms } }

/-- POWER_UP_RESET. (DEDUCED: log entry 111) -/
def powerUpReset (s : State) : State := if s.power.powered then coldState (flashPowerCut s) else s

def execPowerUpReset (s : State) : Ret := .next (powerUpReset s)

/-- TIMEBASE_LOCK: system time begins at 0 (R408). The boot loader writes PD_INIT (R453). -/
def timebaseLock (s : State) : State :=
  if s.power.powered && !s.locked then
    let s1 : State := { s with locked := true, tick := 0, time := 0 }
    let s2 := if s.ndolek.straps.root then s1.modNdk fun n => { n with state := .root } else s1
    if s2.power.bootState = 3 then bootAdvance (pdCtl (s2.power.pdInit.setWidth 32) s2) else s2
  else s

def execTimebaseLock (s : State) : Ret := .next (timebaseLock s)

/-! ## Supplies (R443) -/

/-- A supply leaves its range. -/
def supplyOut (k : SupplyName) (s : State) : State :=
  match k with
  | .vio => powerUpReset (s.modPower fun p => { p with vio := false })
  | .vcore => supplyEvt (s.modPower fun p => { p with vcore := false })
  | .vddq => supplyEvt (s.modPower fun p => { p with vddq := false })
  | .vana => supplyEvt (vanaOut s)

/-- DEV_SUPPLY's bit of a supply. -/
def supplyOk (s : State) (k : SupplyName) : Bool :=
  match k with
  | .vio => s.power.vio
  | .vcore => s.power.vcore
  | .vddq => s.power.vddq
  | .vana => s.power.vana

/-- SUPPLY: a monitored supply leaves its range. -/
def execSupply (k : SupplyName) (s : State) : Ret := .next (if supplyOk s k then supplyOut k s else s)

/-- A supply returns to its range. -/
def supplyIn (k : SupplyName) (s : State) : State :=
  match k with
  | .vio => s.modPower fun p => { p with vio := true }
  | .vcore => s.modPower fun p => { p with vcore := true }
  | .vddq => stkVddqIn (s.modPower fun p => { p with vddq := true })
  | .vana => vanaIn s

/-- SUPPLY_IN_RANGE: a monitored supply returns to its range. -/
def execSupplyInRange (k : SupplyName) (s : State) : Ret := .next (supplyIn k s)

/-! ## The boot record (R452, R453, R455) -/

/-- The boot record is valid (R452). -/
def bootValid (f : Flash) : Bool :=
  flashNat f 0 4 == 0x4A584252 && flashNat f 4 2 == 1 && decide (flashNat f 6 2 ≤ 509) &&
  flashNat f 0xFFC 4 == (crc32 (flashBytes f 0 0xFFC)).toNat

/-- The preload entries of the record: address and value words. -/
def bootEntries (f : Flash) : List (Word × Word) :=
  (List.range (flashNat f 6 2)).map fun i =>
    (BitVec.ofNat 32 (flashNat f (0x10 + 8 * i) 4), BitVec.ofNat 32 (flashNat f (0x14 + 8 * i) 4))

/-- The read mode that FL_MODE gives; for a value that the record's layout does not name, one of the two. (DEDUCED:
log entry 110) -/
def bootMode (s : State) : BitVec 8 :=
  let fast := ((s.flash.params).map fun p => BitVec.ofNat 8 p.fastest).getD 0
  match flashNat s.flash 0x0C 1 with
  | 0 => fast
  | 1 => 1
  | _ => if (freeNow s).getLsbD 0 then fast else 1

/-- The clock divider that FL_DIV gives, no faster than the flash permits; for a value that the record's layout does
not allow, a free one of the allowed ones. (DEDUCED: log entry 110) -/
def bootDiv (s : State) : Nat :=
  let d := flashNat s.flash 0x0D 1
  let x := if 2 ≤ d ∧ d ≤ 32 then d else 2 + (Config.freeValue (s.free + 1)).toNat % 31
  max x (((s.flash.params).map FlashParams.minDiv).getD 2)

/-- Addresses of 4 bytes, above 16 MiB (R450). (DEDUCED: log entry 110) -/
def bootAddr4 (s : State) : Bool := ((s.flash.params).map fun p => decide (24 < p.size)).getD false

/-- The loader has done with the flash, and Accession's load of power-up follows (R268, R455). -/
def bootFlashDone (s : State) : State :=
  if s.flash.use = .boot then flashFree (bootJournal s) else bootJournal s

/-- The loader has a valid record. -/
def bootRecord (s : State) : State :=
  let s1 := takeFree (takeFree (s.modFlash fun f =>
    { f with mode := bootMode s, div := bootDiv s, addr4 := bootAddr4 s }))
  let s2 := s1.modPower fun p =>
    { p with
      bootState := 3, bootFlash := true, pdInit := BitVec.ofNat 20 (flashNat s.flash 8 4) ||| 3
      preload := bootEntries s.flash }
  let s3 := bootFlashDone s2
  if s3.locked then bootAdvance (pdCtl (s3.power.pdInit.setWidth 32) s3) else s3

/-- The loader has no valid record: the defaults apply. -/
def bootDefaults (s : State) : State :=
  let found := s.flash.params.isSome
  let s1 := s.modFlash fun f => { f with mode := if found then 1 else 0, addr4 := bootAddr4 s }
  let s2 := pdCtl 0xFFFFF (bootFlashDone s1)
  setEvt (s2.modPower fun p => { p with bootState := 5, bootFlash := found, bootDefault := true }) .device evtBootDone

/-- BOOT_RECORD_READ: the loader has read the record, or has found no flash. (DEDUCED: log entry 110) -/
def bootRecordRead (s : State) : State :=
  if s.power.powered && s.power.bootState == 1 then
    if s.flash.params.isSome && bootValid s.flash then bootRecord s else bootDefaults s
  else s

def execBootRecordRead (s : State) : Ret := .next (bootRecordRead s)

/-! ## Trigger pins (R329, R470) -/

/-- EDGE_k selects the edge (ARC_PIN_CFG). (DEDUCED: log entry 105) -/
def pinSelects (s : State) (k : Fin 4) (rising : Bool) : Bool :=
  s.archive.pinCfg.getLsbD (2 * k.val + if rising then 0 else 1)

/-- The level before an edge at `t`, in 1/16 tick, has stood for two ticks. (DEDUCED: log entry 105) -/
def pinStood (s : State) (k : Fin 4) (t : Nat) : Bool :=
  match s.archive.pinEdge[k] with
  | some p => decide (p + 32 ≤ t)
  | none => true

/-- TRIGGER_PIN_EDGE: an edge `sub` sixteenths of a tick into the present tick. (DEDUCED: log entry 105) -/
def triggerPinEdge (k : Fin 4) (rising : Bool) (sub : Fin 16) (s : State) : State :=
  if archiveOn s && s.locked then
    let t := 16 * s.tick + sub.val
    let s1 := s.modArchive fun a => { a with pinEdge := vset a.pinEdge k (some t) }
    if pinStood s k t && pinSelects s k rising then
      (raiseAsync s1 (devSid (0x10 + k.val))).each (allFin 64)
        (presentCond k.val ((16 * s.time.toNat + sub.val : Nat) : Int))
    else s1
  else s

def execTriggerPinEdge (k : Fin 4) (rising : Bool) (sub : Fin 16) (s : State) : Ret :=
  .next (triggerPinEdge k rising sub s)

end Sys2Proof.Machine
end

