-- ==== Sys2Proof/Machine/Sash.lean ====
section
/-! DEFINITION. The Sash engine of a bay: frames, slots, overruns, and the margin trace (chapter 5, R127 to R130,
R157 to R161). -/

namespace Sys2Proof.Machine

/-! ## The frame that ends (R129, R130) -/

/-- A due channel that was not reached. -/
def overrunChan (g : ChanNo) (s0 : State) : State :=
  let s := rescaleBack g s0
  setEvt (s.modLoop g fun l => { l with overruns := l.overruns + 1 }) (.channel g) evOverrun

/-- The due channels that were not reached, in the order of the frame (R129, R423). -/
def notReached (e : SashEng) : List (Fin 32) :=
  rotated e.rotate ((allFin 32).filter fun c => e.todo.contains c || e.skipped.contains c)

/-- The frame in progress is settled: overruns, SASH_STAT and the rotation point. -/
def frameSettle (b : BayNo) (s : State) : State :=
  let e := (s.bay b).sash
  if e.frameStart.isNone then s
  else
    let l := notReached e
    let s1 := s.each l fun c => overrunChan (chanOf b c)
    let missed := decide (l ≠ [])
    let s2 := s1.modSash b fun e =>
      { e with
        lastRotate := e.rotate, lastDue := BitVec.ofNat 6 e.due, lastDone := BitVec.ofNat 6 e.reached
        rotate := l.headD 0, overruns := if missed then e.overruns + 1 else e.overruns
        frameStart := none, todo := [], skipped := [], due := 0, reached := 0 }
    traceRelease b true (if missed then setEvt s2 (.sash b) 0 else s2)

/-! ## Starting and stopping the trace (R158) -/

/-- Live words of the trace configuration. -/
def traceSlotWord (s : State) (b : BayNo) (k : Fin 4) : Word := liveWord s (.sash b) (0x50 + 4 * k.val)

/-- The trace starts at the present frame boundary. (DEDUCED: log entry 53) -/
def traceStart (b : BayNo) (s : State) : State :=
  s.modSash b fun e =>
    { e with
      trace :=
        { e.trace with
          running := true, t0 := s.time, frame := 0, entries := [], full := false, wrapped := false
          held := [], spilling := [], halves := 0, lost := 0, mode := live s (.sash b) 0x60 0 2
          decim := live s (.sash b) 0x60 8 4, slots := Vector.ofFn (traceSlotWord s b) } }

/-- Arms and stops of the trace at a frame boundary: a stop ends the trace that ran up to it. (DEDUCED: log entry 53)
-/
def traceBoundary (b : BayNo) (s : State) : State :=
  let t := (s.bay b).sash.trace
  let stop := dueReq s t.stopReq
  let arm := dueReq s t.armReq
  let s1 := s.modSash b fun e =>
    { e with
      trace :=
        { e.trace with
          stopReq := if stop then none else e.trace.stopReq, armReq := if arm then none else e.trace.armReq
          frame := e.trace.frame + 1 } }
  let s2 :=
    if stop && t.running then
      traceDone b (s1.modSash b fun e => { e with trace := { e.trace with running := false } })
    else s1
  if arm && !t.running then traceStart b s2 else s2

/-! ## Frames (R128) -/

/-- A frame begins: every channel's samples and changes of this boundary, then the channels due. -/
def frameBegin (b : BayNo) (s : State) : State :=
  let s1 := s.modSash b fun e => { e with frameStart := some s.tick, frameTime := s.time, reached := 0 }
  let s2 := s1.each (bayChans b) latchLoop
  s2.modSash b (setDue (dueList s2 b))

/-- The engine takes the boxcars of the loop-feed queue (R16, R176). -/
def feedTake (b : BayNo) (s : State) : State :=
  let s1 := s.each (s.bay b).sash.feed fun x s =>
    s.modMeas (chanOf b x.1) fun m => { m with boxes := (x.2 :: m.boxes).take 8192 }
  s1.modSash b fun e => { e with feed := [], noFeed := e.feedLost, feedLost := [] }

/-- The channels due whose boxcar the engine did not find in the queue: each is an underrun (R17). -/
def feedCheck (b : BayNo) (taken : List (Fin 32)) (s : State) : State :=
  s.each ((s.bay b).sash.todo.filter fun c => !taken.contains c) fun _ s => queueUnderrun b 0 s

/-- SASH_FRAME: the frame boundary of a bay's Sash engine. -/
def sashFrame (b : BayNo) (s : State) : State :=
  if pageUp s (.sash b) && onFrame s && (s.bay b).sash.frameStart != some s.tick then
    let s1 := s.each (bayChans b) fun g s => modeDue g (coefApply g (settleDue g s))
    let s2 := frameSettle b s1
    let s3 := (feedTake b s2).each (bayChans b) loopRequests
    feedCheck b ((s2.bay b).sash.feed.map Prod.fst) (frameBegin b (traceBoundary b s3))
  else s

/-- (DESIGN CHOICE: log entry 3) -/
def execSashFrame (b : BayNo) (s : State) : Ret := .next (sashFrame b s)

/-- SASH_COMPUTATION: the next due channel's slot completes, and its code enters the queue, before the next frame begins
(R129). -/
def sashComputation (b : BayNo) (s : State) : State :=
  let e := (s.bay b).sash
  match e.frameStart, e.todo with
  | some t, c :: rest =>
    if pageUp s (.sash b) && after s t && !onFrame s && decide (0 < boxSamples (s.chan (chanOf b c)).meas.boxes) then
      traceRelease b false
        (computeChan (chanOf b c) (s.modSash b fun e => { e with todo := rest, reached := e.reached + 1 }))
    else s
  | _, _ => s

def execSashComputation (b : BayNo) (s : State) : Ret := .next (sashComputation b s)

/-! ## Margin trace (R158, R159, R161) -/

/-- An arm request; an arm while the trace runs has no effect. (DEDUCED: log entry 53) -/
def traceArm (b : BayNo) (s : State) : State :=
  s.modSash b fun e =>
    if e.trace.running || e.trace.armReq.isSome then e
    else { e with trace := { e.trace with armReq := some s.tick } }

def traceStop (b : BayNo) (s : State) : State :=
  s.modSash b fun e =>
    if e.trace.stopReq.isSome then e else { e with trace := { e.trace with stopReq := some s.tick } }

def execTraceArm (b : BayNo) (via : Via) (s : State) : Ret := .next (request (.sash b) 0x064 via (traceArm b) s)

def execTraceStop (b : BayNo) (via : Via) (s : State) : Ret := .next (request (.sash b) 0x064 via (traceStop b) s)

/-- BASE and size in bytes of the spill ring. -/
def traceBase (s : State) (b : BayNo) : Nat :=
  live s (.sash b) 0x88 16 16 * 2 ^ 16 + live s (.sash b) 0x8C 0 9 * 2 ^ 32
def traceRing (s : State) (b : BayNo) : Nat := live s (.sash b) 0x90 0 26 * 65536

/-- The oldest full half has gone to DRAM. -/
def halfGone (b : BayNo) (s : State) : State :=
  let whole := decide (traceHalf ≤ (s.bay b).sash.trace.entries.length)
  setEvt
    (s.modSash b fun e =>
      { e with
        trace :=
          { e.trace with
            halves := e.trace.halves + 1, spilling := if whole then e.trace.entries else []
            entries := if whole then [] else e.trace.entries } })
    (.sash b) 3

/-- TRACE_HALF_WRITTEN: the full half lies in the DRAM ring (R159); it is due when every line of it can be written. -/
def traceHalfWritten (b : BayNo) (s : State) : State :=
  let t := (s.bay b).sash.trace
  if pageUp s (.sash b) && t.spilling != [] then
    if memServes s then
      let a := traceBase s b + t.halves.toNat * 262144 % traceRing s b
      let bytes := t.spilling.flatMap fun e => (leBytes 8 e.toNat).map some
      let s1 := writeBytes 3 (.trace b) a (a / 64) bytes (fun _ => false) [] s
      if writesUnderWay s1 (.trace b) then s else halfGone b s1
    else memWake s
  else s

def execTraceHalfWritten (b : BayNo) (s : State) : Ret := .next (traceHalfWritten b s)

/-- Entries held, oldest first. -/
def traceHeld (s : State) (b : BayNo) : List (BitVec 64) :=
  (s.bay b).sash.trace.spilling ++ (s.bay b).sash.trace.entries

/-- The entry at RDPTR, 0 at or beyond COUNT (R161). -/
def traceEntry (s : State) (b : BayNo) : BitVec 64 :=
  (traceHeld s b)[(s.bay b).sash.trace.rdptr.toNat]?.getD 0

/-- RDPTR advances after a high-word or 64-bit read. -/
def traceAdvance (b : BayNo) (s : State) : State :=
  s.modSash b fun e => { e with trace := { e.trace with rdptr := e.trace.rdptr + 1 } }

end Sys2Proof.Machine
end

