-- ==== Sys2Proof/Machine/Flags.lean ====
section
/-! DEFINITION. The status words of every page: STAT, and the read-only registers whose bits show what a block is
doing (R31 and the register tables of chapters 2 to 18). -/

namespace Sys2Proof.Machine

/-- A flag at a bit. -/
def flagAt (b : Bool) (k : Nat) : Word := if b then bit1 k else 0

/-- A number at a place of a word. -/
def numAt (n lsb : Nat) : Word := BitVec.ofNat 32 (n * 2 ^ lsb)

/-! ## STAT -/

def sStatTransom (s : State) : Word :=
  flagAt ((allFin 256).any fun n => (s.line n).loopFault) 0 |||
    flagAt ((allFin 256).any fun n => (s.line n).delayed.isSome) 1

def sStatArchive (s : State) : Word :=
  flagAt s.archive.overcommit 0 ||| flagAt s.archive.tagBusy.isSome 1 |||
  numAt ((allFin 64).filter fun f => recording (s.folio f)).length 2

def sStatStacks (s : State) : Word :=
  let k := s.stk
  flagAt k.initDone 0 ||| flagAt k.zeroing 1 ||| flagAt k.sref 2 ||| flagAt k.rateBusy 3 |||
  flagAt (k.wantRate.isSome && anyRecording s) 4 ||| flagAt ((allFin 16).any fun i => (s.sub i).deferred) 5 |||
  flagAt k.tcUsed 6 ||| flagAt k.nomem 7

def sStatHost (s : State) : Word :=
  flagAt s.host.linkUp 0 ||| flagAt s.host.bme 1 ||| flagAt (s.host.msixEn && !s.host.funcMask) 2

def ndkStateCode (x : NdkState) : Nat :=
  match x with
  | .down => 0
  | .linking => 1
  | .measuring => 2
  | .aligned => 3
  | .holdover => 4
  | .root => 5

def sStatNdolek (s : State) : Word :=
  let n := s.ndolek
  numAt (ndkStateCode n.state) 0 ||| flagAt n.upLink 3 ||| flagAt n.downLink 4 ||| flagAt n.hub 5 |||
  flagAt n.txMsg.isSome 6

/-- A channel's Lintel limit as LIN_LIM shows it (R222). (DEDUCED: log entry 60) -/
def linLimShown (s : State) (g : ChanNo) : BitVec 16 :=
  if (s.chan g).force.boostLive then 0xFFFF else (s.chan g).lintel

def sStatLintel (s : State) : Word :=
  flagAt ((allFin 512).any fun g => linLimShown s g != 0xFFFF) 0 ||| flagAt (linScaled s) 1

def accOpCode (x : AccOp) : Nat :=
  match x with
  | .idle => 0
  | .run => 1
  | .store => 2
  | .load => 3

def sStatAccession (s : State) : Word :=
  numAt (accOpCode s.acc.op) 0 ||| flagAt s.acc.runPend 2 ||| flagAt s.acc.storePend 3 ||| flagAt s.acc.loadPend 4

/-- The entry of the slot in progress, 0 when there is none. (DESIGN CHOICE: log entry 29) -/
def catIndex (c : CatConv) : Nat := (c.slot.map fun x => x.entry.val).getD 0

/-- (DESIGN CHOICE: log entry 29) -/
def sStatCatalogue (s : State) (b : BayNo) : Word :=
  let c := (s.bay b).cat
  flagAt (decide (catLen s b .a ≠ 0)) 0 ||| flagAt (decide (catLen s b .b ≠ 0) && !c.held) 1 ||| flagAt c.held 2 |||
  flagAt c.xfault 3 ||| flagAt (checkUnpaired s b) 4 ||| flagAt (decide (c.retryPairs ≠ 0)) 5 |||
  flagAt c.a.injReq.isSome 6 ||| flagAt c.b.injReq.isSome 7 ||| numAt (catIndex c.a) 8 ||| numAt (catIndex c.b) 12

def sStatShelf (s : State) (b : BayNo) : Word :=
  let q := (s.bay b).shelf
  numAt (readerFill q) 0 ||| flagAt q.level 12 ||| flagAt (decide (readerFill q = 0)) 13 |||
  flagAt (decide (producerFill s.tick q = shelfSize)) 14 ||| flagAt (q.flushing || q.flushTo.isSome) 15

/-- The block bits of a page's STAT. -/
def statBlock (s : State) (p : Page) : Word :=
  match p with
  | .device => flagAt s.mgmt.firstValid 0
  | .transom => sStatTransom s
  | .archive => sStatArchive s
  | .stk => sStatStacks s
  | .host => sStatHost s
  | .ndolek => sStatNdolek s
  | .lintel => sStatLintel s
  | .accession => sStatAccession s
  | .catalogue b => sStatCatalogue s b
  | .shelf b => sStatShelf s b
  | .faultLog _ | .line _ | .folio _ | .dma _ | .msix | .bay _ | .sash _ | .channel _ => 0

/-- STAT of a page: PD_UP in bit 31. (DESIGN CHOICE: log entry 29) -/
def statWord (s : State) (p : Page) : Word := statBlock s p ||| flagAt (pageUp s p) 31

/-! ## Header words (R31, R39, R42, R46) -/

def clampRpt (h : PageHdr) : Word :=
  numAt h.clampCount.toNat 0 ||| numAt h.clampList.length 16 ||| numAt h.clampSeq.toNat 24

def commitWordOf (h : PageHdr) : Word :=
  numAt h.seq.toNat 8 ||| flagAt h.staged.isSome 16 ||| flagAt h.pending 17 ||| flagAt h.aborted 30 |||
  flagAt h.captured.isSome 31

/-- CLAMP_LISTn. -/
def clampListWord (h : PageHdr) (n : Nat) : Word :=
  halves ((h.clampList[2 * n + 1]?).getD 0) ((h.clampList[2 * n]?).getD 0)

def ctlWord (h : PageHdr) : Word := flagAt h.view 0 ||| flagAt h.taskApply 1

/-! ## Channel status (chapters 3 to 7) -/

/-- CLOSE_CAUSE: a closing registers one tick after its tick-path source asserts (R81, R83). (DEDUCED: log entry 32)
-/
def causeShown (s : State) (g : ChanNo) : BitVec 4 :=
  let f := (s.chan g).force
  match f.switch with
  | .closing t => if t = s.tick then f.causeWas else f.closeCause
  | .tripped t c => if t + 2 ≤ s.tick then BitVec.ofNat 4 c else f.closeCause
  | _ => f.closeCause

/-- CH_FSTAT. -/
def fstatWord (s : State) (g : ChanNo) : Word :=
  let f := (s.chan g).force
  flagAt (shut s g) 0 ||| flagAt f.fixed 1 ||| flagAt f.spanChange.isSome 2 ||| numAt (spanCode f.spanLive) 4 |||
  flagAt f.sel 8 ||| flagAt f.boostLive 9 ||| flagAt f.setptLim 10 ||| flagAt f.codeLim 11 |||
  numAt (causeShown s g).toNat 16 ||| numAt f.refuseCause.toNat 20

/-- CH_PROG_STAT. -/
def progStatWord (p : Prog) : Word :=
  flagAt p.running 0 ||| flagAt p.done 1 ||| flagAt p.ready 2 ||| flagAt p.fault 3 ||| flagAt p.tripped 4

/-- CH_LOOP_STAT. (DEDUCED: log entry 47) -/
def loopStatWord (s : State) (g : ChanNo) : Word :=
  let l := (s.chan g).loop
  numAt (loopStateCode (loopState s g)) 0 ||| flagAt l.freeze 3 ||| numAt l.active.toNat 4 ||| flagAt l.vclamp 6 |||
  flagAt (decide (live s (.channel g) 0x1C8 0 20 < live s (.channel g) 0x1CC 0 20)) 7 ||| flagAt l.esat 8 |||
  flagAt l.osat 9 ||| numAt l.cause.toNat 12

/-- CH_MEAS_STAT. (DEDUCED: log entry 57) -/
def measStatWord (s : State) (g : ChanNo) : Word :=
  let m := (s.chan g).meas
  flagAt m.ovrV 0 ||| flagAt m.ovrI 1 ||| flagAt m.clipV 2 ||| flagAt m.clipI 3 ||| flagAt m.uncal 4 |||
  flagAt (calHeld s g) 5 ||| flagAt m.pvalid 6 ||| flagAt m.flane 8 ||| flagAt m.plane 9 |||
  flagAt (s.chan g).force.boostLive 10

/-- CH_CMP_STAT. -/
def cmpStatWord (s : State) (g : ChanNo) : Word :=
  let half (w : Win) (at_ : Nat) : Word :=
    let x := s.win g w
    numAt (rawCode x.raw) at_ ||| numAt (rawCode x.latch) (at_ + 2) ||| flagAt (blanked s g w) (at_ + 4) |||
    flagAt (decide (thrHi s g w < thrLo s g w)) (at_ + 5) ||| numAt (rawCode x.mirror) (at_ + 6)
  half .v 0 ||| half .i 8 ||| flagAt (decide (stest s g ≠ 0)) 16 ||| flagAt (sampled s g) 17

/-! ## Status of the other blocks -/

/-- SASH_TRACE_STAT. -/
def traceStatWord (s : State) (b : BayNo) : Word :=
  let t := (s.bay b).sash.trace
  numAt (traceHeld s b).length 0 ||| flagAt t.running 29 ||| flagAt t.full 30 ||| flagAt t.wrapped 31

/-- LIN_BAY_STAT. -/
def linStatWord (s : State) (b : BayNo) : Word :=
  let x := s.lintel.bays[b]
  numAt (linLimited s b) 0 ||| numAt x.cls.toNat 8 ||| flagAt (decide (linLimited s b ≠ 0)) 10 ||| flagAt x.atFloor 11

/-- The status half-word of a channel in ACC_CH_STAT. -/
def accStat (x : AccChan) : BitVec 16 :=
  lo16 (numAt x.code.toNat 0 ||| numAt x.span.toNat 4 ||| flagAt x.attempted 7 ||| flagAt x.coefs.loaded 8 |||
    flagAt (x.code != 0) 9 ||| flagAt x.retried 10 ||| flagAt x.dirty 11)

/-- ACC_JNL_STAT. -/
def jnlStatWord (a : Accession) : Word :=
  numAt ((a.inUse.map fun i => i.val).getD 3) 0 ||| numAt a.s0.toNat 2 ||| numAt a.s1.toNat 4 ||| numAt a.last.toNat 8

/-- TR_LN_STAT. (DEDUCED: log entry 74) -/
def lineStatWord (s : State) (n : Fin 256) : Word :=
  let l := s.line n
  flagAt l.delayed.isSome 0 ||| flagAt (lineUnassigned s n) 1 ||| numAt l.dlost.toNat 8 ||| numAt l.merged.toNat 16

/-- ARC_F_STAT. -/
def folioStatWord (x : Folio) : Word :=
  numAt x.state.val 0 ||| flagAt x.flushed 3 ||| numAt x.endCause.toNat 4 ||| numAt x.shift 8 |||
  flagAt x.postClamped 13 ||| flagAt x.preClamped 14 ||| flagAt x.refused 15 ||| numAt x.refuseCause.toNat 16 |||
  numAt x.primary.toNat 20

def subStateCode (x : SubState) : Nat :=
  match x with
  | .absent => 0
  | .init => 1
  | .train => 2
  | .restore => 3
  | .ready => 4
  | .sref => 5
  | .rate => 6
  | .fenced => 7

/-- STK_SC_STAT at a tick. -/
def subStatWord (tick : Nat) (c : Sub) : Word :=
  numAt (subStateCode c.state) 0 ||| flagAt (decide (tick < c.pauseUntil)) 3 ||| flagAt c.deferred 4 |||
  flagAt c.restored 5 |||
  numAt c.attempt.toNat 6 ||| numAt c.queue.length 8

/-- STK_MAP. -/
def mapWord (k : Stacks) : Word :=
  let ns := match k.channels.length with | 0 => 0 | 1 | 2 => 1 | 3 | 4 => 2 | _ => 3
  (k.channels.foldl (fun w c => w ||| bit1 c.val) 0) ||| numAt ns 8 ||| numAt k.rankBits 10 ||| flagAt k.x8 12 |||
  flagAt k.dens32 13 ||| numAt k.mw 16

def qStateCode (x : QState) : Nat :=
  match x with
  | .disabled => 0
  | .idle => 1
  | .active => 2
  | .halted => 3
  | .paused => 4

/-- HL_Q_STAT. -/
def qStatWord (x : DmaQ) : Word := numAt (qStateCode x.state) 0 ||| flagAt x.conflict 3 ||| numAt x.flags.toNat 8

/-- NDK_ID. -/
def ndkIdWord (n : Ndolek) : Word :=
  numAt (ndkDevice n) 0 ||| numAt n.position.toNat 10 ||| numAt n.straps.chain.toNat 15 ||| flagAt n.straps.root 20 |||
  flagAt n.long 21

/-- DEV_PD_STAT. -/
def pdStatWord (p : Power) : Word :=
  numAt p.up.toNat 0 ||| numAt ((p.current.map fun x => x.1.val).getD 0) 20 ||| flagAt p.held 25 |||
  flagAt (p.current.isSome || !p.queue.isEmpty) 31

/-- DEV_SUPPLY. -/
def supplyWord (p : Power) : Word :=
  flagAt p.vio 0 ||| flagAt p.vcore 1 ||| flagAt p.vddq 2 ||| flagAt p.vana 3 ||| numAt p.rails.toNat 16

/-- DEV_BOOT. -/
def bootWord (s : State) : Word :=
  let p := s.power
  numAt p.bootState.toNat 0 ||| flagAt p.bootFlash 3 ||| flagAt p.bootDefault 4 |||
  flagAt (decide (p.bootState = 3) && !s.locked) 5 ||| numAt s.flash.mode.toNat 8 ||| numAt p.applied.toNat 16 |||
  numAt p.skipped.toNat 25

/-- DEV_FL_STAT. -/
def flStatWord (f : Flash) : Word :=
  flagAt (decide (f.use ≠ .free)) 0 ||| flagAt (f.queue.any isHostUse) 1 ||| flagAt f.err 2 |||
  numAt (if f.mode = 0 then 0 else (f.params.map FlashParams.size).getD 0) 8

/-! ## Pending pages (R394, R395) -/

/-- The page is up and one of its enabled events is set. -/
def pagePending (s : State) (p : Page) : Bool := pageUp s p && (s.page p).evt &&& (s.page p).evtEn != 0

def bayWindow (b : BayNo) : List Page := [.bay b, .catalogue b, .sash b, .shelf b] ++ (bayChans b).map Page.channel

def devPages : List Page :=
  [.device, .faultLog 0, .faultLog 1, .transom] ++ (allFin 4).map Page.line ++ [.archive] ++
    (allFin 8).map Page.folio ++
  [.stk, .host] ++ (allFin 2).map Page.dma ++ [.msix, .ndolek, .lintel, .accession]

/-- Every page of BAR0. -/
def allPages : List Page := devPages ++ (allFin 16).flatMap bayWindow

/-- A word of flags at rising bits. -/
def flagList (l : List Bool) : Word := (l.zip (List.range 32)).foldl (fun w x => w ||| flagAt x.1 x.2) 0

/-- HL_VSUM. -/
def vsum (s : State) : BitVec 64 :=
  (allPages.filter (pagePending s)).foldl (fun v p => v ||| ((1 : BitVec 64) <<< (s.page p).vec.toNat)) 0

/-- HL_PEND_DEV. (DESIGN CHOICE: log entry 27) -/
def pendDev (s : State) : Word :=
  let q := pagePending s
  flagList
    ([q .device || q (.faultLog 0) || q (.faultLog 1), q .transom, q .archive, q .stk, q .host, q .ndolek, q .lintel,
      q .accession] ++ (allFin 4).map (fun i => q (.line i)) ++ (allFin 8).map (fun i => q (.folio i)) ++
      (allFin 2).map (fun i => q (.dma i)))

/-- HL_PEND_BAYPG: the word of bays `8 h` to `8 h + 7`. (DESIGN CHOICE: log entry 27) -/
def pendBays (s : State) (h : Nat) : Word :=
  flagList
    (((allFin 16).filter fun b => b.val / 8 == h).flatMap fun b =>
      [pagePending s (.bay b), pagePending s (.catalogue b), pagePending s (.sash b), pagePending s (.shelf b)])

/-- HL_PEND_CH_b. (DESIGN CHOICE: log entry 27) -/
def pendChans (s : State) (b : BayNo) : Word := flagList ((bayChans b).map fun g => pagePending s (.channel g))

/-- The MSI-X Pending Bit Array (R394). (DESIGN CHOICE: log entry 27) -/
def pendingBits (s : State) : BitVec 64 :=
  (allFin 64).foldl (fun v i => if s.host.msix[i].pend then v ||| ((1 : BitVec 64) <<< i.val) else v) 0

end Sys2Proof.Machine
end

