-- ==== Sys2Proof/Machine/RegRead.lean ====
section
/-! DEFINITION. The word that every register shows (R27, R31, and the register tables of chapters 1 to 18), and the
64-bit pairs (R54). -/

namespace Sys2Proof.Machine

/-! ## Pairs -/

/-- The low word of a 64-bit register lies at this offset. (DEDUCED: log entry 16) -/
def pairLow (p : Page) (off : Nat) : Bool :=
  off == 0x038 ||
  match p with
  | .device => off == 0x048 || off == 0x0A0
  | .faultLog _ => decide (0x800 ≤ off) && off % 16 == 0
  | .archive => off == 0x060 || off == 0x068
  | .folio _ =>
    match inSlot 0x100 0x1C0 8 off with
    | some (_, o) =>
      o == 0x010 || o == 0x020 || o == 0x028 || (decide (0x0F0 ≤ o) && decide (o < 0x120) && o % 8 == 0)
    | none => false
  | .stk => off == 0x060 || off == 0x070 || off == 0x080
  | .host => off == 0x060 || off == 0x070
  | .dma _ =>
    match inSlot 0x100 0x40 8 off with
    | some (_, o) => o == 0x08 || o == 0x10 || o == 0x28
    | none => false
  | .ndolek => off == 0x050 || off == 0x070 || off == 0x078
  | .accession => off == 0x068
  | .bay _ => off == 0x088
  | .catalogue _ => decide (0x200 ≤ off) && decide (off < 0x310) && off % 8 == 0
  | .sash _ => off == 0x070 || off == 0x080 || off == 0x088
  | .channel _ => off == 0x120 || off == 0x220 || off == 0x228 || off == 0x230 || off == 0x2A0 || off == 0x2A8
  | .transom | .line _ | .msix | .lintel | .shelf _ => false

/-- The high word of a 64-bit register lies at this offset. (DEDUCED: log entry 16) -/
def pairHigh (p : Page) (off : Nat) : Bool := decide (4 ≤ off) && pairLow p (off - 4)

/-- The low word of a pair of type RW lies at this offset (R58). (DEDUCED: log entry 16) -/
def pairRw (p : Page) (off : Nat) : Bool :=
  match p with
  | .archive => off == 0x060
  | .bay _ => off == 0x088
  | _ => false

/-! ## Registers by page -/

/-- The element with number `k` of a slot list, for `k` below `n`. -/
def slotFin (n k : Nat) : Option (Fin n) := if h : k < n then some ⟨k, h⟩ else none

def pairWord (p : Pair) (gain : Bool) : Word := if gain then p.gain.setWidth 32 else p.ofs.setWidth 32

/-- The pair that CH_MI_GAIN and CH_MI_OFS show, and that of CH_BOOST_ISCAL and CH_BOOST_IOFS (R170). (DEDUCED: log
entry 115) -/
def shownMi (s : State) (g : ChanNo) : Pair :=
  let c := s.chan g
  if c.force.boostLive then c.coefs.mi[spanIdx c.force.spanLive] else c.meas.pairI
/-- (DEDUCED: log entry 115) -/
def shownBis (s : State) (g : ChanNo) : Pair :=
  let c := s.chan g
  if c.force.boostLive then c.meas.pairI else c.coefs.bis[irange s g]

/-- Force-path and program registers of a channel (chapters 3 and 4). -/
def readChanA (s : State) (g : ChanNo) (off : Nat) : Word :=
  let c := s.chan g
  match off with
  | 0x0CC => numAt c.slew.out.toNat 0 ||| flagAt c.slew.next.isSome 31
  | 0x0D4 => pairWord (dacPair s g) true
  | 0x0D8 => pairWord (dacPair s g) false
  | 0x0E0 => fstatWord s g
  | 0x0E4 => c.force.dacCode.setWidth 32
  | 0x0E8 => closeSrcWord s g
  | 0x0EC => halves c.force.superseded c.force.changes
  | 0x108 => progStatWord c.prog
  | 0x10C => BitVec.ofNat 32 (present s g)
  | 0x118 => numAt c.prog.index.toNat 0 ||| numAt c.prog.pass.toNat 16
  | 0x138 => BitVec.ofNat 32 c.prog.point
  | 0x13C => c.prog.misses
  | 0x15C => numAt c.prog.trips.toNat 16
  | 0x160 => numAt c.prog.pulses.toNat 0 ||| flagAt (louvreHigh s g) 24
  | 0x1AC => pairWord (shownBis s g) true
  | 0x1B0 => pairWord (shownBis s g) false
  | _ => 0

/-- Loop, measure and comparator registers of a channel (chapters 5 to 7). (DEDUCED: log entry 115) -/
def readChanB (s : State) (g : ChanNo) (off : Nat) : Word :=
  let c := s.chan g
  match off with
  | 0x1D0 => numAt (hiEff s g) 0 ||| numAt (loEff s g) 16
  | 0x1DC => halves c.loop.lost c.loop.transient
  | 0x1E0 => loopStatWord s g
  | 0x1E8 => c.loop.corr.setWidth 32
  | 0x1EC => c.loop.vsp.setWidth 32
  | 0x1F0 => c.loop.overruns
  | 0x204 => measStatWord s g
  | 0x208 => pairWord c.meas.pairV true
  | 0x20C => pairWord c.meas.pairV false
  | 0x210 => pairWord (shownMi s g) true
  | 0x214 => pairWord (shownMi s g) false
  | 0x218 => halves c.meas.fastI c.meas.fastV
  | 0x21C => halves c.meas.ovrCntI c.meas.ovrCntV
  | 0x220 => lo32 c.meas.pv
  | 0x224 => hi32 c.meas.pv
  | 0x228 => lo32 c.meas.pi
  | 0x22C => hi32 c.meas.pi
  | 0x230 => lo32 c.meas.scaleTime
  | 0x234 => hi32 c.meas.scaleTime
  | 0x248 => numAt c.res.seq.toNat 0 ||| flagAt c.res.capture.isSome 8 ||| numAt c.res.merged.toNat 16
  | 0x298 => cmpStatWord s g
  | 0x29C => halves c.winI.count c.winV.count
  | 0x2A0 => lo32 c.winV.time
  | 0x2A4 => hi32 c.winV.time
  | 0x2A8 => lo32 c.winI.time
  | 0x2AC => hi32 c.winI.time
  | 0x2B0 => halves c.winI.mism c.winV.mism
  | _ => 0

/-- Registers of a channel page. -/
def readChan (s : State) (g : ChanNo) (off : Nat) : Word :=
  if off < 0x1B4 then readChanA s g off else readChanB s g off

/-- Registers of a bay page (R15, chapter 4). -/
def readBay (s : State) (b : BayNo) (off : Nat) : Word :=
  let x := s.bay b
  match off with
  | 0x040 => numAt x.speed.toNat 0 ||| flagAt x.speedValid 31
  | 0x044 => x.speedMin.setWidth 32
  | 0x080 => x.listPtr
  | 0x088 => lo32 (listRead s b)
  | 0x08C => hi32 (listRead s b)
  | _ => 0

/-- Registers of a Sash page (chapter 5). -/
def readSash (s : State) (b : BayNo) (off : Nat) : Word :=
  let e := (s.bay b).sash
  match off with
  | 0x040 => numAt e.lastRotate.val 0 ||| numAt e.lastDue.toNat 8 ||| numAt e.lastDone.toNat 16
  | 0x044 => e.overruns
  | 0x068 => traceStatWord s b
  | 0x070 => lo32 e.trace.t0
  | 0x074 => hi32 e.trace.t0
  | 0x078 => e.trace.rdptr.setWidth 32
  | 0x080 => lo32 (traceEntry s b)
  | 0x084 => hi32 (traceEntry s b)
  | 0x094 => e.trace.halves
  | 0x098 => e.trace.lost
  | _ => 0

/-- Registers of a Shelf page but for the data window (chapter 12). -/
def readShelf (s : State) (b : BayNo) (off : Nat) : Word :=
  let q := (s.bay b).shelf
  match off with
  | 0x04C => q.lost
  | 0x050 => q.under
  | 0x054 => q.flushed.setWidth 32
  | 0x058 => q.last
  | 0x05C => q.written
  | _ => 0

/-- CAT_RES of a result. -/
def catResLo (r : CatRes) : Word :=
  numAt r.value.toNat 0 ||| flagAt r.ovr 16 ||| flagAt r.clip 17 ||| flagAt r.inj 18 ||| flagAt r.precal 19 |||
  flagAt r.retry 20 ||| numAt r.entry.val 24 ||| flagAt (decide (r.conv = .b)) 28 ||| flagAt true 31

def catResWord (r : Option CatRes) (high : Bool) : Word :=
  match r with
  | none => 0
  | some x => if high then x.time else catResLo x

/-- The result register at an offset of a Catalogue page. -/
def catResAt (c : Cat) (off : Nat) : Option CatRes :=
  match inSlot 0x200 8 16 off with
  | some (n, _) => ((c.a.results.toList)[n]?).getD none
  | none =>
    match inSlot 0x280 8 16 off with
    | some (n, _) => ((c.b.results.toList)[n]?).getD none
    | none => if off / 8 = 0x60 then c.a.injResult else if off / 8 = 0x61 then c.b.injResult else none

/-- Registers of a Catalogue page (chapter 9). -/
def readCat (s : State) (b : BayNo) (off : Nat) : Word :=
  let c := (s.bay b).cat
  match off with
  | 0x04C => halves c.unpaired c.pass
  | 0x050 => halves c.lasting c.transient
  | 0x058 => c.a.injEntry.setWidth 32
  | 0x05C => c.b.injEntry.setWidth 32
  | 0x060 => halves c.b.late c.a.late
  | 0x310 => halves c.lastB c.lastA
  | o => catResWord (catResAt c o) (o % 8 == 4)

/-- Registers of the Lintel page (chapter 8). -/
def readLintel (s : State) (off : Nat) : Word :=
  let l := s.lintel
  let perBay (base : Nat) (f : BayNo → Word) : Word := ((slotFin 16 ((off - base) / 4)).map f).getD 0
  let perChan (base : Nat) (f : ChanNo → BitVec 16) : Word :=
    match slotFin 512 (2 * ((off - base) / 4)), slotFin 512 (2 * ((off - base) / 4) + 1) with
    | some i, some j => halves (f j) (f i)
    | _, _ => 0
  if off = 0x048 then BitVec.ofNat 32 (l.total / 1000)
  else if off = 0x04C then l.late
  else if off = 0x050 then flagList ((l.bays.toList.map LintelBay.limitFlag) ++ (l.bays.toList.map LintelBay.floorFlag))
  else if off = 0x054 then BitVec.ofNat 32 (linSum s)
  else if off < 0x100 then 0
  else if off < 0x140 then perBay 0x100 fun b => numAt (linEff s b) 16
  else if off < 0x180 then perBay 0x140 fun b => numAt (l.bays[b].total / 1000) 0 |||
    numAt (l.bays[b].floorPwr / 1000) 16
  else if off < 0x1C0 then perBay 0x180 fun b => linStatWord s b
  else if off < 0x200 then perBay 0x1C0 fun b => halves l.bays[b].vfn l.bays[b].vfp
  else if off < 0x400 then 0
  else if off < 0x800 then perChan 0x400 fun g => linLimShown s g
  else if off < 0xC00 then perChan 0x800 fun g => BitVec.ofNat 16 ((s.chan g).power / 10)
  else 0

/-- Registers of the Accession page (chapter 10). -/
def readAcc (s : State) (off : Nat) : Word :=
  let a := s.acc
  let v := a.chans[(⟨a.viewSel.toNat, a.viewSel.isLt⟩ : Fin 512)]
  match off with
  | 0x04C => numAt a.done.toNat 0 ||| numAt a.failedCnt.toNat 16
  | 0x054 => jnlStatWord a
  | 0x058 => a.seq
  | 0x060 => a.viewSel.setWidth 32
  | 0x064 => v.count
  | 0x068 => lo32 v.time
  | 0x06C => hi32 v.time
  | 0x070 => v.coefs.skew.setWidth 32
  | 0x078 => v.failVal
  | o =>
    if 0x080 ≤ o ∧ o < 0x0C0 then ((a.sel.toList)[(o - 0x080) / 4]?).getD 0
    else if 0x400 ≤ o ∧ o < 0x800 then
      match slotFin 512 (2 * ((o - 0x400) / 4)), slotFin 512 (2 * ((o - 0x400) / 4) + 1) with
      | some i, some j => halves (accStat a.chans[j]) (accStat a.chans[i])
      | _, _ => 0
    else 0

/-- Registers of the Transom main page (chapter 11). -/
def readTransom (s : State) (off : Nat) : Word :=
  let x := s.transom
  match off with
  | 0x0A0 => x.loopCnt
  | 0x0A4 => x.pdDrop
  | 0x0B0 => x.mrgSel.setWidth 32
  | 0x0B4 => (sparseGet (fun _ => (0 : BitVec 16)) x.mrgCnt x.mrgSel.toNat).setWidth 32
  | 0x0B8 => x.mrgTotal
  | 0x0BC => x.mrgLast.setWidth 32
  | o =>
    if 0x080 ≤ o ∧ o < 0x0A0 then
      flagList ((((allFin 256).drop (32 * ((o - 0x080) / 4))).take 32).map fun n => (s.line n).loopFault)
    else
      match inSlot 0x100 16 16 o with
      | some (k, 0x0C) =>
        match slotFin 16 k with
        | some k => numAt (s.timer k).expired.toNat 0 ||| flagAt (s.timer k).running 31
        | none => 0
      | _ => 0

/-- Registers of a line page. -/
def readLinePage (s : State) (q : Fin 4) (off : Nat) : Word :=
  match inSlot 0x100 32 64 off with
  | some (k, o) =>
    match slotFin 256 (64 * q.val + k) with
    | some n => if o = 0x18 then lineStatWord s n else if o = 0x1C then (s.line n).events else 0
    | none => 0
  | none => 0

/-- Registers of the Archive main page (chapter 13). (DEDUCED: log entry 83) -/
def readArchive (s : State) (off : Nat) : Word :=
  let a := s.archive
  match off with
  | 0x040 => BitVec.ofNat 32 (arcPeak s / 1000000)
  | 0x044 => BitVec.ofNat 32 (arcBudget s / 1000000)
  | 0x048 => BitVec.ofNat 32 (ceilDiv (arcAdmitted s) 1000000)
  | 0x04C => a.pinCfg.setWidth 32
  | 0x050 => a.stgLost
  | 0x054 => a.stgLast.setWidth 32
  | 0x058 => a.lastFolio.setWidth 32
  | 0x05C => s.archive.ndkLag.setWidth 32
  | 0x060 => lo32 a.tagAddr
  | 0x064 => hi32 a.tagAddr
  | 0x068 => (a.tagData.extractLsb' 0 32)
  | 0x06C => (a.tagData.extractLsb' 32 24).setWidth 32 ||| flagAt a.tagPoison 30 ||| flagAt a.tagValid 31
  | _ => 0

/-- The 64-bit status pairs of a folio (R336); the trigger point reads all ones until the trigger. -/
def folioPair (x : Folio) (o : Nat) : BitVec 64 :=
  match o with
  | 0x0F0 => BitVec.ofNat 64 x.depth
  | 0x0F8 => BitVec.ofNat 64 x.postEff
  | 0x100 => BitVec.ofNat 64 x.s0
  | 0x108 => (x.trigPoint.map (BitVec.ofNat 64)).getD (BitVec.allOnes 64)
  | 0x110 => BitVec.ofNat 64 x.horizon
  | 0x118 => BitVec.ofNat 64 x.preEff
  | _ => 0

/-- Registers of a folio page. -/
def readFolio (s : State) (q : Fin 8) (off : Nat) : Word :=
  match inSlot 0x100 0x1C0 8 off with
  | some (k, o) =>
    match slotFin 8 k with
    | some k =>
      let x := s.folio (folioOf q k)
      match o with
      | 0x0E0 => folioStatWord x
      | 0x0E4 => halves x.ignored x.mask
      | 0x0E8 => BitVec.ofNat 32 (ceilDiv x.cost 1000000)
      | 0x0EC => BitVec.ofNat 32 x.streamCount
      | o => if o % 8 = 0 then lo32 (folioPair x o) else hi32 (folioPair x (o - 4))
    | none => 0
  | none => 0

/-- Registers of a Stacks port that has `now` transactions in the queues (STK_PORT). -/
def readPort (now : Nat) (x : PortCnt) (o : Nat) : Word :=
  match o with
  | 0x08 => x.req
  | 0x0C => x.late
  | 0x10 => x.promo
  | 0x14 => numAt now 0 ||| numAt x.peak 16
  | _ => 0

/-- Registers of a subchannel (STK_SC). -/
def readSub (tick : Nat) (c : Sub) (o : Nat) : Word :=
  match o with
  | 0x00 => subStatWord tick c
  | 0x04 => halves c.corrL c.corrT
  | 0x08 => halves c.uncorrL c.uncorrT
  | 0x0C => halves c.retrainFailed c.retrainDone
  | 0x10 => c.inorderCnt
  | 0x14 => numAt c.temp.toNat 0 ||| flagAt c.tempValid 15
  | _ => 0

/-- Registers of the Stacks page (chapter 14). -/
def readStacks (s : State) (off : Nat) : Word :=
  let k := s.stk
  let wide (n : Nat) : BitVec 64 := BitVec.ofNat 64 n
  match off with
  | 0x058 => mapWord k
  | 0x060 => lo32 (wide k.cap)
  | 0x064 => hi32 (wide k.cap)
  | 0x068 => k.fence.setWidth 32
  | 0x070 => lo32 (wide k.scrubPos)
  | 0x074 => hi32 (wide k.scrubPos)
  | 0x078 => k.scrubPass
  | 0x080 => lo32 (wide k.errAddr) ||| k.errType.setWidth 32
  | 0x084 => hi32 (wide k.errAddr)
  | 0x088 => halves k.dpUncorr k.dpCorr
  | 0x08C => k.oor
  | 0x090 => k.srefCnt
  | o =>
    match inSlot 0x100 0x20 6 o, inSlot 0x400 0x20 16 o with
    | some (p, x), _ => ((slotFin 6 p).map fun p => readPort (portNow k p) k.ports[p] x).getD 0
    | none, some (i, x) => ((slotFin 16 i).map fun i => readSub s.tick (s.sub i) x).getD 0
    | none, none => 0

/-- Registers of the host main page (chapter 15). -/
def readHost (s : State) (off : Nat) : Word :=
  let h := s.host
  let four (v : Vector (BitVec 8) 4) : Word :=
    numAt v[0].toNat 0 ||| numAt v[1].toNat 8 ||| numAt v[2].toNat 16 ||| numAt v[3].toNat 24
  match off with
  | 0x040 => numAt h.rate.toNat 0 ||| numAt h.width.toNat 4
  | 0x048 => h.bar2Base.setWidth 32
  | 0x050 => four h.cor
  | 0x054 => four h.unc
  | 0x058 => halves h.egressUncorr h.egressCorr
  | 0x060 => lo32 (vsum s)
  | 0x064 => hi32 (vsum s)
  | 0x068 => pendDev s
  | 0x070 => pendBays s 0
  | 0x074 => pendBays s 1
  | o => if 0x080 ≤ o ∧ o < 0x0C0 then ((slotFin 16 ((o - 0x080) / 4)).map (pendChans s)).getD 0 else 0

/-- Registers of a DMA page. -/
def readDma (s : State) (i : Fin 2) (off : Nat) : Word :=
  match inSlot 0x100 0x40 8 off with
  | some (k, o) =>
    match slotFin 16 (8 * i.val + k) with
    | some q =>
      let x := s.dmaQ q
      match o with
      | 0x18 => x.tail.setWidth 32
      | 0x1C => x.head.setWidth 32
      | 0x24 => qStatWord x
      | 0x28 => lo32 x.bytes
      | 0x2C => hi32 x.bytes
      | 0x30 => x.descs
      | _ => 0
    | none => 0
  | none => 0

/-- The MSI-X Table and Pending Bit Array (R394). -/
def readMsix (s : State) (off : Nat) : Word :=
  if off = 0x800 then lo32 (pendingBits s)
  else if off = 0x804 then hi32 (pendingBits s)
  else
    match inSlot 0x400 16 64 off with
    | some (k, o) =>
      match slotFin 64 k with
      | some v =>
        let e := s.host.msix[v]
        match o with
        | 0x00 => lo32 e.addr
        | 0x04 => hi32 e.addr
        | 0x08 => e.data
        | 0x0C => flagAt e.masked 0
        | _ => 0
      | none => 0
    | none => 0

/-- Registers of the Ndolek page (chapter 16). -/
def readNdk (s : State) (off : Nat) : Word :=
  let n := s.ndolek
  match off with
  | 0x05C => ndkIdWord n
  | 0x060 => halves (if isRoot s then n.lagMin else ndkPmax n) n.lagLive
  | 0x064 => halves n.p n.delay
  | 0x068 => n.phase.setWidth 32
  | 0x070 => lo32 s.time
  | 0x074 => hi32 s.time
  | 0x078 => lo32 n.step
  | 0x07C => hi32 n.step
  | 0x080 => n.level.setWidth 32 ||| (flagList ((allFin 8).map (driving s)) <<< 8)
  | 0x084 => halves n.lost n.retx
  | 0x088 => halves n.crcDown n.crcUp
  | 0x08C => halves n.merges n.late
  | 0x0E0 => numAt n.rx.length 0 ||| numAt n.drops.toNat 16
  | o =>
    if 0x0C0 ≤ o ∧ o < 0x0D0 then ((n.msgTx.toList)[(o - 0x0C0) / 4]?).getD 0
    else if 0x0D0 ≤ o ∧ o < 0x0E0 then (((rxOldest n).toList)[(o - 0x0D0) / 4]?).getD 0
    else 0

/-- FLT_INFO. -/
def fltInfo (x : LogEntry) : Word :=
  numAt x.code.toNat 0 ||| numAt x.attempts.toNat 8 ||| numAt x.cls.toNat 10 ||| flagAt x.abandoned 12 |||
  numAt x.seq.toNat 16

/-- The words of a log entry. -/
def logWord (x : LogEntry) (o : Nat) : Word :=
  match o with
  | 0x0 => lo32 x.time
  | 0x4 => hi32 x.time
  | 0x8 => numAt x.page.toNat 0 ||| numAt x.unit.toNat 16
  | 0xC => fltInfo x
  | _ => 0

/-- Registers of the device page (chapters 2, 17 and 18). (DESIGN CHOICE: log entry 10) -/
def readDevice (s : State) (off : Nat) : Word :=
  let m := s.mgmt
  match off with
  | 0x040 => 0x0512 ||| numAt (if Config.gradeIsE then 2 else 1) 16
  | 0x044 => 0x00000021
  | 0x048 => lo32 Config.uid
  | 0x04C => hi32 Config.uid
  | 0x050 => numAt m.accAddr.toNat 0 ||| numAt m.accCause.toNat 24 ||| flagAt m.accWrite 31
  | 0x080 => m.fltSeq
  | 0x084 => m.fltAck
  | 0x088 => m.fltLost
  | 0x08C => m.nTrans
  | 0x090 => m.nLasting
  | 0x094 => m.nNotice
  | 0x0B0 => m.rst.setWidth 32
  | 0x0C0 => s.power.ctl.setWidth 32
  | 0x0C4 => pdStatWord s.power
  | 0x0C8 => supplyWord s.power
  | 0x0CC => bootWord s
  | 0x0E0 => s.flash.ctl
  | 0x0E4 => s.flash.addr
  | 0x0E8 => flStatWord s.flash
  | o =>
    if 0x0A0 ≤ o ∧ o < 0x0B0 then logWord m.first (o - 0x0A0)
    else if 0x400 ≤ o ∧ o < 0x500 then
      let b := (s.flash.buf.toList.drop (o - 0x400)).take 4
      BitVec.ofNat 32 (leNat b)
    else 0

/-- Registers of a fault-log page (R424). -/
def readLog (s : State) (i : Fin 2) (off : Nat) : Word :=
  match inSlot 0x800 16 128 off with
  | some (k, o) => ((slotFin 256 (128 * i.val + k)).map fun e => logWord s.mgmt.log[e] o).getD 0
  | none => 0

/-- Block registers of a page other than RWD fields. (DEDUCED: log entry 19) -/
def readBlock (s : State) (p : Page) (off : Nat) : Word :=
  match p with
  | .device => readDevice s off
  | .faultLog i => readLog s i off
  | .transom => readTransom s off
  | .line q => readLinePage s q off
  | .archive => readArchive s off
  | .folio q => readFolio s q off
  | .stk => readStacks s off
  | .host => readHost s off
  | .dma i => readDma s i off
  | .msix => readMsix s off
  | .ndolek => readNdk s off
  | .lintel => readLintel s off
  | .accession => readAcc s off
  | .bay b => readBay s b off
  | .catalogue b => readCat s b off
  | .sash b => readSash s b off
  | .shelf b => readShelf s b off
  | .channel g => readChan s g off

/-- The RWD fields of a word: the draft, or the live values while CTL.VIEW is 1. -/
def readRwd (s : State) (p : Page) (off : Nat) : Word :=
  match rwd p off with
  | some _ => if (s.page p).view then liveWord s p off else draftWord s p off
  | none => 0

/-- Header words (R31). -/
def readHeader (s : State) (p : Page) (off : Nat) : Word :=
  let h := s.page p
  match off with
  | 0x000 => pageId p
  | 0x004 => pageRev
  | 0x008 => ctlWord h
  | 0x00C => statWord s p
  | 0x010 => h.evt
  | 0x014 => h.evtEn
  | 0x018 => clampRpt h
  | 0x01C => commitWordOf h
  | 0x020 => clampListWord h 0
  | 0x024 => clampListWord h 1
  | 0x028 => clampListWord h 2
  | 0x02C => clampListWord h 3
  | 0x030 => h.vec.setWidth 32
  | 0x038 => lo32 h.commitTime
  | 0x03C => hi32 h.commitTime
  | _ => 0

/-- The word that a register of a reachable page shows, without the effects of reading it. (DEDUCED: log entry 19) -/
def regWord (s : State) (p : Page) (off : Nat) : Word :=
  if off < 0x040 then readHeader s p off else readBlock s p off ||| readRwd s p off

end Sys2Proof.Machine
end

