-- ==== Sys2Proof/Machine/RegFile.lean ====
section
/-! DEFINITION. BAR0 accesses: what a 32-bit write of every register does, the effects of reads, TLPs of several
doublewords and their refusals (R27 to R31, R35, R51 to R58), and the preload of the boot record (R454). -/

namespace Sys2Proof.Machine

/-! ## Events written by firmware (R50 to R53) -/

/-- The event bits that a page implements. -/
def evtMask (p : Page) : Word :=
  0xF8000000 |||
  match p with
  | .device => 0x000003FF
  | .transom => 0x0000001F
  | .archive => 0x0000003F
  | .folio _ | .dma _ => 0x00FFFFFF
  | .stk => 0x00000FFF
  | .host => 0x0000007F
  | .ndolek => 0x000001FF
  | .lintel => 0x0000000F
  | .accession => 0x000000FF
  | .catalogue _ => 0x0000003F
  | .sash _ => 0x0000000F
  | .shelf _ => 0x0000001F
  | .channel _ => 0x00FFFFFF
  | .faultLog _ | .line _ | .msix | .bay _ => 0

/-- The event bits that hardware set in the present tick: a clear in the same tick leaves them at 1 (R24, R51).
(DESIGN CHOICE: log entry 2; DEDUCED: log entry 21) -/
def justSet (s : State) (p : Page) : Word :=
  if s.locked ∧ (s.page p).setTick = s.tick then (s.page p).setBits else 0

/-- EVT written: the named bits clear. (DEDUCED: log entry 21) -/
def evtClear (p : Page) (mask : Word) (s : State) : State :=
  evtWritten (s.modPage p fun h => { h with evt := h.evt &&& ~~~(mask &&& ~~~justSet s p) }) p

/-- EVT_EN written. -/
def evtEnWrite (p : Page) (w : Word) (s : State) : State :=
  evtWritten (s.modPage p fun h => { h with evtEn := w &&& evtMask p }) p

/-- EVT_VEC written. -/
def evtVecWrite (p : Page) (w : Word) (s : State) : State :=
  evtWritten (s.modPage p fun h => { h with vec := w.extractLsb' 0 6 }) p

def execEvtClear (p : Page) (mask : Word) (s : State) : Ret := .next (request p 0x010 .write (evtClear p mask) s)

def execEvtEnWrite (p : Page) (w : Word) (s : State) : Ret := .next (request p 0x014 .write (evtEnWrite p w) s)

def execEvtVecWrite (p : Page) (w : Word) (s : State) : Ret := .next (request p 0x030 .write (evtVecWrite p w) s)

/-! ## The speed index of a bay (R15) -/

/-- SPEED_WINDOW_END: a window of 1,024 ticks ends with a count of ring cycles. (DEDUCED: log entry 114) -/
def speedWindowEnd (b : BayNo) (cycles : BitVec 16) (s : State) : State :=
  if bayUp s b && sinceIs s (s.bay b).speedFrom 1024 then
    s.modBay b fun x =>
      { x with
        speed := cycles, speedValid := true, speedFrom := s.tick
        speedMin := if cycles.toNat < x.speedMin.toNat then cycles else x.speedMin }
  else s

def execSpeedWindowEnd (b : BayNo) (cycles : BitVec 16) (s : State) : Ret := .next (speedWindowEnd b cycles s)

/-- BAY_SPEED_MIN.REARM: a window that ended in this same tick still counts. (DEDUCED: log entry 114) -/
def speedRearm (b : BayNo) (s : State) : State :=
  s.modBay b fun x => { x with speedMin := if x.speedValid && x.speedFrom == s.tick then x.speed else 0xFFFF }

def execRearm (b : BayNo) (s : State) : Ret := .next (request (.bay b) 0x044 .write (speedRearm b) s)

/-! ## Writes of single registers -/

/-- `f` when bit `k` of a written word is 1. (DESIGN CHOICE: log entry 22) -/
def onBit (w : Word) (k : Nat) (f : State → State) (s : State) : State := if w.getLsbD k then f s else s

/-- The element of a slot list, when it exists. -/
def onSlot {n : Nat} (k : Option (Fin n)) (f : Fin n → State → State) (s : State) : State :=
  match k with
  | some i => f i s
  | none => s

/-- Header words (R31). -/
def writeHdr (p : Page) (off : Nat) (w : Word) (s : State) : State :=
  match off with
  | 0x008 => s.modPage p fun h => { h with view := w.getLsbD 0, taskApply := hasCommitTask p && w.getLsbD 1 }
  | 0x010 => evtClear p w s
  | 0x014 => evtEnWrite p w s
  | 0x01C => onBit w 1 (commitDiscard p) (onBit w 0 (commitGo p) s)
  | 0x030 => evtVecWrite p w s
  | _ => s

/-- Controls of a channel page. (DESIGN CHOICE: log entries 22, 45) -/
def writeChan (g : ChanNo) (off : Nat) (w : Word) (s : State) : State :=
  match off with
  | 0x0DC => onBit w 1 (fun s => closeTick s g 0xA) (onBit w 0 (fun s => requestOpen s g) s)
  | 0x104 => onBit w 3 (progPrime g) (onBit w 2 (progAdvance g .ok) (onBit w 1 (progStop g) (onBit w 0 (progStart g
    .ok .ok) s)))
  | 0x15C => onBit w 0 (louvreTripClear g) s
  | 0x1E4 => onBit w 1 (loopReset g) (onBit w 0 (release g) s)
  | 0x244 => onBit w 0 (resultCapture g) s
  | 0x294 => cmpClear g (w.getLsbD 0) (w.getLsbD 1) s
  | _ => s

def writeBay (b : BayNo) (off : Nat) (w : Word) (s : State) : State :=
  match off with
  | 0x044 => onBit w 31 (speedRearm b) s
  | 0x080 => s.modBay b fun x => { x with listPtr := w &&& 0x8001FFFF }
  | _ => s

def writeCat (b : BayNo) (off : Nat) (w : Word) (s : State) : State :=
  let inj (k : Conv) : State :=
    onBit w 31 (injectReq b k) (s.modConv b k fun c => { c with injEntry := w.extractLsb' 0 4 })
  match off with
  | 0x054 => onBit w 0 (xchkReset b) s
  | 0x058 => inj .a
  | 0x05C => inj .b
  | _ => s

/-- (DESIGN CHOICE: log entry 22) -/
def writeSash (b : BayNo) (off : Nat) (w : Word) (s : State) : State :=
  match off with
  | 0x064 => onBit w 1 (traceStop b) (onBit w 0 (traceArm b) s)
  | 0x078 => s.modSash b fun e => { e with trace := { e.trace with rdptr := w.extractLsb' 0 17 } }
  | _ => s

def writeShelf (b : BayNo) (off : Nat) (w : Word) (s : State) : State :=
  match off with
  | 0x048 => onBit w 0 (shelfFlush b) s
  | _ => s

def writeLintel (off : Nat) (w : Word) (s : State) : State :=
  match off with
  | 0x050 =>
    s.each (allFin 16) fun b s =>
      s.modLinBay b fun x =>
        { x with
          limitFlag := x.limitFlag && !w.getLsbD b.val, floorFlag := x.floorFlag && !w.getLsbD (16 + b.val) }
  | _ => s

/-- (DESIGN CHOICE: log entry 22) -/
def writeAcc (off : Nat) (w : Word) (s : State) : State :=
  match off with
  | 0x048 => onBit w 3 accAbort (onBit w 2 accLoad (onBit w 1 accStore (onBit w 0 calibrate s)))
  | 0x060 => s.modAcc fun a => { a with viewSel := w.extractLsb' 0 9 }
  | o =>
    if 0x080 ≤ o ∧ o < 0x0C0 then
      onSlot (slotFin 16 ((o - 0x080) / 4)) (fun b s => s.modAcc fun a => { a with sel := vset a.sel b w }) s
    else s

/-- LOOP_FAULT flags cleared by a write of TR_LOOP_FLAGS_k. -/
def loopFlagsClear (k : Nat) (w : Word) (s : State) : State :=
  s.each (((allFin 256).drop (32 * k)).take 32) fun n s =>
    if w.getLsbD (n.val % 32) then s.modLine n fun l => { l with loopFault := false } else s

def writeTransom (off : Nat) (w : Word) (s : State) : State :=
  match off with
  | 0x040 => onBit w 31 (fireLines [⟨(w.extractLsb' 0 8).toNat, (w.extractLsb' 0 8).isLt⟩]) s
  | 0x0B0 => s.modTransom fun x => { x with mrgSel := lo16 w }
  | o =>
    if 0x044 ≤ o ∧ o < 0x064 then onSlot (slotFin 8 ((o - 0x044) / 4)) (fun k => fireLines (groupLines k w)) s
    else if 0x080 ≤ o ∧ o < 0x0A0 then loopFlagsClear ((o - 0x080) / 4) w s
    else
      match inSlot 0x100 16 16 o with
      | some (k, 0x08) =>
        onSlot (slotFin 16 k) (fun k s => onBit w 1 (timerStop k) (onBit w 0 (timerStart k) s)) s
      | _ => s

def writeArchive (off : Nat) (w : Word) (s : State) : State :=
  match off with
  | 0x04C => s.modArchive fun a => { a with pinCfg := w.extractLsb' 0 8 }
  | 0x070 => onBit w 0 tagGo s
  | _ => s

/-- ARC_F_CTL of the eight folios of a page. -/
def writeFolio (q : Fin 8) (off : Nat) (w : Word) (s : State) : State :=
  match inSlot 0x100 0x1C0 8 off with
  | some (k, 0x00C) =>
    onSlot (slotFin 8 k) (fun k s =>
      let f := folioOf q k
      onBit w 2 (folioStopOp f) (onBit w 1 (folioTrig (trigSource .write) f) (onBit w 0 (folioArm f) s))) s
  | _ => s

/-- STK_CTL and STK_FENCE. An initialisation finds the DIMMs that were fitted at the last one. -/
def writeStacks (off : Nat) (w : Word) (s : State) : State :=
  match off with
  | 0x054 => onBit w 2 scrubRestart (onBit w 1 tcStore (onBit w 0 (stkInit s.stk.dimms) s))
  | 0x068 => stkFence (lo16 w) s
  | _ => s

def writeHost (off : Nat) (w : Word) (s : State) : State :=
  match off with
  | 0x048 => bar2Base w s
  | _ => s

def writeDma (i : Fin 2) (off : Nat) (w : Word) (s : State) : State :=
  match inSlot 0x100 0x40 8 off with
  | some (k, o) =>
    onSlot (slotFin 16 (8 * i.val + k)) (fun q s =>
      if o = 0x18 then doorbell q w s
      else if o = 0x20 then onBit w 1 (dmaResume q) (onBit w 0 (dmaStop q) s)
      else s) s
  | none => s

/-- A word of an MSI-X Table entry: message address, message data and vector control. -/
def msixWrite (v : Fin 64) (o : Nat) (w : Word) (s : State) : State :=
  let put (f : MsixEntry → MsixEntry) : State := s.modHost fun h => { h with msix := vmod h.msix v f }
  match o with
  | 0x00 => put fun e => { e with addr := hi32 e.addr ++ (w &&& 0xFFFFFFFC) }
  | 0x04 => put fun e => { e with addr := w ++ lo32 e.addr }
  | 0x08 => put fun e => { e with data := w }
  | 0x0C => if w.getLsbD 0 then put fun e => { e with masked := true } else msixUnmask v s
  | _ => s

def writeMsix (off : Nat) (w : Word) (s : State) : State :=
  match inSlot 0x400 16 64 off with
  | some (k, o) => onSlot (slotFin 64 k) (fun v => msixWrite v o w) s
  | none => s

def writeNdk (off : Nat) (w : Word) (s : State) : State :=
  match off with
  | 0x058 => onBit w 1 ndkSend (onBit w 0 ndkLoad s)
  | o =>
    if 0x0C0 ≤ o ∧ o < 0x0D0 then
      onSlot (slotFin 4 ((o - 0x0C0) / 4)) (fun i s => s.modNdk fun n => { n with msgTx := vset n.msgTx i w }) s
    else s

/-- DEV_FL_BUF: bytes `4 n` to `4 n + 3`, little-endian. -/
def flBufWrite (at_ : Nat) (w : Word) (s : State) : State :=
  s.each (allFin 4) fun i s =>
    onSlot (slotFin 256 (at_ + i.val))
      (fun k s => s.modFlash fun f => { f with buf := vset f.buf k (w.extractLsb' (8 * i.val) 8) }) s

def writeDevice (off : Nat) (w : Word) (s : State) : State :=
  match off with
  | 0x084 => fltAck w s
  | 0x098 => onBit w 0 fltRearm s
  | 0x0B0 => devRst (w.extractLsb' 0 19) s
  | 0x0C0 => pdCtl w s
  | 0x0E0 => onBit w 31 flGo (s.modFlash fun f => { f with ctl := w &&& 0x0001FF0F })
  | 0x0E4 => s.modFlash fun f => { f with addr := w }
  | o => if 0x400 ≤ o ∧ o < 0x500 then flBufWrite (o - 0x400) w s else s

/-- Block registers other than RWD fields and pairs. (DEDUCED: log entry 19) -/
def writeBlock (p : Page) (off : Nat) (w : Word) (s : State) : State :=
  match p with
  | .device => writeDevice off w s
  | .transom => writeTransom off w s
  | .archive => writeArchive off w s
  | .folio q => writeFolio q off w s
  | .stk => writeStacks off w s
  | .host => writeHost off w s
  | .dma i => writeDma i off w s
  | .msix => writeMsix off w s
  | .ndolek => writeNdk off w s
  | .lintel => writeLintel off w s
  | .accession => writeAcc off w s
  | .bay b => writeBay b off w s
  | .catalogue b => writeCat b off w s
  | .sash b => writeSash b off w s
  | .shelf b => writeShelf b off w s
  | .channel g => writeChan g off w s
  | .faultLog _ | .line _ => s

/-- A draft write: the implemented bits of the word (R36); the others keep their fixed values (R4, STK_XOR_0 to 4). -/
def draftWrite (p : Page) (off : Nat) (w : Word) (s : State) : State :=
  match rwd p off with
  | some x => s.modPage p fun h => { h with
    draft := storeSet p h.draft off ((w &&& x.mask) ||| (x.reset &&& ~~~x.mask)) }
  | none => s

/-- An RW pair takes both words (R58). (DESIGN CHOICE: log entry 17) -/
def pairTake (p : Page) (off : Nat) (lo hi : Word) (s : State) : State :=
  match p with
  | .archive => s.modArchive fun a => { a with tagAddr := (hi &&& 0x1FF) ++ (lo &&& 0xFFFFFFC0) }
  | .bay b => if off = 0x088 then listWrite b (hi ++ lo) s else s
  | _ => s

/-- The high word of an RW pair written: the pair takes it with the held low word. With none held, the low word stays
as it is. (DESIGN CHOICE: log entry 17) -/
def pairHighWrite (p : Page) (off : Nat) (w : Word) (s : State) : State :=
  let x := pairAt s p off
  pairTake p off (x.held.getD (regWord s p off)) w (putPair p { x with held := none } s)

/-- A 32-bit write to a page that can be reached. -/
def regWrite (p : Page) (off : Nat) (w : Word) (s : State) : State :=
  if off < 0x040 then writeHdr p off w s
  else if pairRw p off then putPair p { pairAt s p off with held := some w } s
  else if decide (4 ≤ off) && pairRw p (off - 4) then pairHighWrite p (off - 4) w s
  else draftWrite p off w (writeBlock p off w s)

/-! ## Effects of reads (R54 to R56, R161, R300, R418) -/

/-- A 32-bit read of the low word of a pair. (DESIGN CHOICE: log entry 18) -/
def readLow (p : Page) (off : Nat) (s : State) : Word × State :=
  (regWord s p off, putPair p { pairAt s p off with shadow := regWord s p (off + 4), armed := true } s)

/-- What a read of the high word, or of a whole pair, sets moving (R161). -/
def pairReadEffect (p : Page) (off : Nat) (s : State) : State :=
  match p with
  | .sash b => if off = 0x080 then traceAdvance b s else s
  | _ => s

/-- A 32-bit read of the high word of a pair whose low word lies at `off`. (DESIGN CHOICE: log entry 18) -/
def readHigh (p : Page) (off : Nat) (s : State) : Word × State :=
  let x := pairAt s p off
  let s1 := if x.armed then putPair p { x with armed := false } s else setEvt s p evtStale
  (x.shadow, pairReadEffect p off s1)

/-- A read of a whole pair. (DESIGN CHOICE: log entry 18) -/
def readPair (p : Page) (off : Nat) (s : State) : (Word × Word) × State :=
  ((regWord s p off, regWord s p (off + 4)), pairReadEffect p off s)

/-- A read of a Stacks port's counters restarts PEAK (STK_PORT_INFL). (DEDUCED: log entry 28) -/
def portCountersRead (off : Nat) (s : State) : State :=
  match inSlot 0x100 0x20 6 off with
  | some (p, o) =>
    if 0x08 ≤ o ∧ o < 0x18 then onSlot (slotFin 6 p) (fun p s => s.modPort p fun c => { c with
      peak := portNow s.stk p }) s else s
  | none => s

/-- A 32-bit read of a register that is no part of a pair. -/
def readPlain (p : Page) (off : Nat) (s : State) : Word × State :=
  match p with
  | .shelf b => if 0x800 ≤ off then shelfTake b s else (regWord s p off, s)
  | .ndolek => (regWord s p off, if off = 0x0DC then rxPop s else s)
  | .stk => (regWord s p off, portCountersRead off s)
  | _ => (regWord s p off, s)

/-- A 32-bit read of a page that can be reached. -/
def regRead (p : Page) (off : Nat) (s : State) : Word × State :=
  if pairLow p off then readLow p off s
  else if pairHigh p off then readHigh p (off - 4) s
  else readPlain p off s

/-! ## Accesses (R27 to R29, R431) -/

/-- Why a doubleword of an access is refused, 0 when it is not: 1 unmapped, 3 domain off or reset in progress. The
header words 0x000 and 0x004 of such a page are served (R29). (DESIGN CHOICE: log entry 18; DEDUCED: log entry 19) -/
def wordCause (s : State) (addr : Nat) : Nat :=
  match pageOf addr with
  | none => 1
  | some p => if pageOpen s p || decide (addr % 4096 < 8) then 0 else 3

/-- One doubleword of a write. -/
def busWrite (addr : Nat) (w : Word) (s : State) : State :=
  match pageOf addr with
  | none => refuseAccess addr 1 true s
  | some p =>
    if pageOpen s p then regWrite p (addr % 4096) w s
    else if wordCause s addr = 0 then s
    else refuseAccess addr 3 true s

/-- One doubleword of a read. -/
def busRead (addr : Nat) (s : State) : Word × State :=
  match pageOf addr with
  | none => (0, refuseAccess addr 1 false s)
  | some p =>
    if pageOpen s p then regRead p (addr % 4096) s
    else if wordCause s addr = 0 then (readHeader s p (addr % 4096), s)
    else (0, refuseAccess addr 3 false s)

/-- The two doublewords from an address cover a 64-bit register of a page that can be reached. -/
def wholePair (s : State) (addr : Nat) : Option (Page × Nat) :=
  match pageOf addr with
  | some p => if pageOpen s p && pairLow p (addr % 4096) then some (p, addr % 4096) else none
  | none => none

/-- The doublewords of a write in ascending address order. (DEDUCED: log entry 20) -/
def busWrites (addr : Nat) (l : List Word) (s : State) : State :=
  match l with
  | [] => s
  | w :: rest => busWrites (addr + 4) rest (busWrite addr w s)

/-- The doublewords of a read in ascending address order; a 64-bit register that it covers whole is read at one
instant. (DEDUCED: log entry 20) -/
def busReads (n addr : Nat) (s : State) : List Word × State :=
  match n with
  | 0 => ([], s)
  | 1 =>
    let x := busRead addr s
    ([x.1], x.2)
  | n + 2 =>
    match wholePair s addr with
    | some (p, off) =>
      let x := readPair p off s
      let y := busReads n (addr + 8) x.2
      (x.1.1 :: x.1.2 :: y.1, y.2)
    | none =>
      let x := busRead addr s
      let y := busReads (n + 1) (addr + 4) x.2
      (x.1 :: y.1, y.2)

/-- A write TLP. One that is misaligned, or has partial byte enables in any doubleword, is refused. (DEDUCED: log
entries 14, 20; DESIGN CHOICE: log entry 120) -/
def accessWrite (addr : Nat) (l : List Word) (full : Bool) (s : State) : State :=
  if !s.power.powered || !s.host.linkUp then s
  else if !full || decide (addr % 4 ≠ 0) then refuseAccess addr 2 true s
  else busWrites addr l s

/-- A read TLP. (DEDUCED: log entries 14, 20; DESIGN CHOICE: log entry 120) -/
def accessRead (addr n : Nat) (full : Bool) (s : State) : State :=
  if !s.power.powered || !s.host.linkUp then s
  else if !full || decide (addr % 4 ≠ 0) then refuseRead addr 2 n s
  else
    let x := busReads n addr s
    answerRead x.1 x.2

/-- REGISTER_WRITE. (DEDUCED: log entry 13) -/
def execRegisterWrite (addr : BitVec 24) (words : List Word) (full : Bool) (s : State) : Ret :=
  if 1 ≤ words.length ∧ words.length ≤ 128 then .next (accessWrite addr.toNat words full s) else .fault .illFormed

/-- REGISTER_READ. (DEDUCED: log entry 13; DESIGN CHOICE: log entry 121) -/
def execRegisterRead (addr : BitVec 24) (words : Nat) (full : Bool) (s : State) : Ret :=
  if 1 ≤ words ∧ words ≤ 1024 then .next (accessRead addr.toNat words full s) else .fault .illFormed

/-- READ_LOW_WORD: a 32-bit read at the offset of a low word. -/
def execReadLowWord (p : Page) (off : BitVec 12) (s : State) : Ret :=
  .next (accessRead (pageBase p + off.toNat) 1 true s)

/-- READ_HIGH_WORD: a 32-bit read at the offset of a high word. -/
def execReadHighWord (p : Page) (off : BitVec 12) (s : State) : Ret :=
  .next (accessRead (pageBase p + off.toNat) 1 true s)

/-- READ_64: a 64-bit read at an 8-byte-aligned offset. (DESIGN CHOICE: log entry 121) -/
def execRead64 (p : Page) (off : BitVec 12) (s : State) : Ret :=
  .next (accessRead (pageBase p + off.toNat) 2 (decide (off.toNat % 8 = 0)) s)

/-- WRITE_LOW_WORD: a 32-bit write at the offset of a low word. -/
def execWriteLowWord (p : Page) (off : BitVec 12) (w : Word) (s : State) : Ret :=
  .next (accessWrite (pageBase p + off.toNat) [w] true s)

/-- WRITE_HIGH_WORD: a 32-bit write at the offset of a high word. -/
def execWriteHighWord (p : Page) (off : BitVec 12) (w : Word) (s : State) : Ret :=
  .next (accessWrite (pageBase p + off.toNat) [w] true s)

/-- TRACE_DATA_READ: the high word of SASH_TRACE_DATA, or both words at once (R161). -/
def execTraceDataRead (b : BayNo) (wide : Bool) (s : State) : Ret :=
  .next
    (if wide then accessRead (pageBase (.sash b) + 0x080) 2 true s
    else accessRead (pageBase (.sash b) + 0x084) 1 true s)

/-! ## The preload (R453, R454) -/

/-- An entry is skipped: SKIPPED counts it, and stops at 127. -/
def preloadSkip (s : State) : State := s.modPower fun p => { p with skipped := satInc p.skipped }

/-- An entry that R454 never writes: DEV_PD_CTL or DEV_RST. -/
def preloadBarred (addr : Nat) : Bool := addr / 4 * 4 == 0x0C0 || addr / 4 * 4 == 0x0B0

/-- One entry: skipped, refused and skipped, or written. (DEDUCED: log entry 110; DESIGN CHOICE: log entry 120) -/
def preloadApply (addr : Nat) (w : Word) (s : State) : State :=
  if preloadBarred addr then preloadSkip s
  else if addr % 4 ≠ 0 then preloadSkip (refuseAccess addr 2 true s)
  else if wordCause s addr ≠ 0 then preloadSkip (refuseAccess addr (wordCause s addr) true s)
  else
    let s1 := (busWrite addr w s).modPower fun p => { p with applied := p.applied + 1 }
    match pageOf addr with
    | some p =>
      if decide (addr % 4096 = 0x01C) && w.getLsbD 0 &&
        pageOpen s p then s1.modPower fun x => { x with waitCommit := some p }
      else s1
    | none => s1

/-- PRELOAD_ENTRY: the loader takes the next entry; after the last it is done. -/
def preloadEntry (s : State) : State :=
  if s.power.bootState = 4 ∧ s.power.waitCommit = none then
    match s.power.preload with
    | [] => s
    | (a, w) :: rest =>
      let s1 := preloadApply (a.toNat % 2 ^ 24) w (s.modPower fun p => { p with preload := rest })
      if rest.isEmpty then setEvt (s1.modPower fun p => { p with
        bootState := 5, waitCommit := none }) .device evtBootDone
      else s1
  else s

def execPreloadEntry (s : State) : Ret := .next (preloadEntry s)

end Sys2Proof.Machine
end

