-- ==== Sys2Proof/Machine/Tasks.lean ====
section
/-! DEFINITION. The task inputs of the Transom fabric and the hop that activates them (R274, R279, R282). -/

namespace Sys2Proof.Machine

/-- What the list fetches of a channel find in this command: that of the entry at START, and that of the entry fetched
ahead. A channel that the list does not name finds no error. (DESIGN CHOICE: log entry 45) -/
def parityOf (l : List (ChanNo × Parity × Parity)) (g : ChanNo) : Parity × Parity :=
  match l with
  | [] => (.ok, .ok)
  | (c, p) :: rest => if c = g then p else parityOf rest g

/-- The page of a block's task input, and what it does there. -/
abbrev TaskInput := Page × (State → State)

/-- The commit task input of a page (R46). -/
def commitInput (p : Page) : TaskInput := (p, commitTask p)

/-- Task inputs of a channel (R274). -/
def chanTask (par : List (ChanNo × Parity × Parity)) (g : ChanNo) (code : Nat) : Option TaskInput :=
  match code with
  | 0x0 => some (.channel g, progStart g (parityOf par g).1 (parityOf par g).2)
  | 0x1 => some (.channel g, progStop g)
  | 0x2 => some (.channel g, progAdvance g (parityOf par g).2)
  | 0x3 => some (.channel g, progPrime g)
  | 0x4 => some (.channel g, fun s => requestOpen s g)
  | 0x5 => some (.channel g, fun s => closeTick s g 0x9)
  | 0x6 => some (.channel g, changeSpan g)
  | 0x7 => some (.channel g, loopFreeze g)
  | 0x8 => some (.channel g, loopResume g)
  | 0x9 => some (.channel g, resultCapture g)
  | 0xA => some (commitInput (.channel g))
  | _ => none

/-- Task inputs of a bay (R274). -/
def bayTask (b : BayNo) (code : Nat) : Option TaskInput :=
  match code with
  | 0x0 => some (.sash b, traceArm b)
  | 0x1 => some (.sash b, traceStop b)
  | 0x2 => some (.catalogue b, injectReq b .a)
  | 0x3 => some (.catalogue b, injectReq b .b)
  | 0x4 => some (commitInput (.bay b))
  | 0x5 => some (commitInput (.catalogue b))
  | 0x6 => some (commitInput (.sash b))
  | 0x7 => some (commitInput (.shelf b))
  | _ => none

/-- Task inputs of a folio (R274); a trigger task is a trigger of source 14 (R328). -/
def folioTask (f : Fin 64) (code : Nat) : Option TaskInput :=
  match code with
  | 0x0 => some (folioPage f, folioArm f)
  | 0x1 => some (folioPage f, folioTrig (trigSource (.task 0)) f)
  | 0x2 => some (folioPage f, folioStopOp f)
  | _ => none

/-- Task inputs of the device class (R274). -/
def devTaskInput (code : Nat) : Option TaskInput :=
  match code with
  | 0x00 => some (commitInput .device)
  | 0x01 => some (commitInput .transom)
  | 0x02 => some (commitInput .archive)
  | 0x03 => some (commitInput .stk)
  | 0x04 => some (commitInput .host)
  | 0x05 => some (commitInput .ndolek)
  | 0x06 => some (commitInput .lintel)
  | 0x07 => some (commitInput .accession)
  | 0x08 => some (commitInput (.line 0))
  | 0x09 => some (commitInput (.line 1))
  | 0x0A => some (commitInput (.line 2))
  | 0x0B => some (commitInput (.line 3))
  | 0x10 => some (.accession, calibrateVia (.task 0))
  | c =>
    if h : 0x20 ≤ c ∧ c < 0x28 then some (.ndolek, driveLine ⟨c - 0x20, by omega⟩)
    else if h : 0x30 ≤ c ∧ c < 0x40 then some (.transom, timerStart ⟨c - 0x30, by omega⟩)
    else if h : 0x40 ≤ c ∧ c < 0x50 then some (.transom, timerStop ⟨c - 0x40, by omega⟩)
    else none

/-- The task input that a TID names. -/
def taskInput (par : List (ChanNo × Parity × Parity)) (tid : BitVec 16) : Option TaskInput :=
  if !tidNames tid then none
  else
    match idClass tid with
    | 0 => chanTask par (idChan tid) (idCode tid)
    | 1 => bayTask (idBay tid) (idCode tid)
    | 2 => devTaskInput (idDev tid)
    | 3 => folioTask (idFolio tid) (idCode tid)
    | _ => none

/-- A task input activates at a depth; one whose domain is off, or that a reset holds, drops it (R286, R431).
(DEDUCED: log entries 25, 118; DESIGN CHOICE: log entry 45) -/
def activate (par : List (ChanNo × Parity × Parity)) (a : Activation) (s : State) : State :=
  match taskInput par a.tid with
  | some (p, f) => request p 0 (.task a.depth) f s
  | none => s

/-- TRANSOM_HOP: the hops of the present tick into lines and to destinations, and the activations that they make, in
rising TID; commits of line pages go first. (DEDUCED: log entry 71) -/
def transomHop (par : List (ChanNo × Parity × Parity)) (s : State) : State :=
  if domUp s 3 then
    let first := lineCommits s
    let x := hopAll (s.each first (activate par))
    x.1.each (x.2.filter fun a => !first.any fun y => y.tid == a.tid) (activate par)
  else s

def execTransomHop (parity : List (ChanNo × Parity × Parity)) (s : State) : Ret := .next (transomHop parity s)

end Sys2Proof.Machine
end

