-- ==== Sys2Proof/Machine/Dispatch.lean ====
section
/-! DEFINITION. One arm per command. -/

namespace Sys2Proof.Machine

def exec (i : Instr) (s : State) : Host.Outcome State Fault Refusal :=
  match i with
  | .registerWrite addr words full => Sys2Proof.Machine.execRegisterWrite addr words full s
  | .readLowWord p off => Sys2Proof.Machine.execReadLowWord p off s
  | .readHighWord p off => Sys2Proof.Machine.execReadHighWord p off s
  | .read64 p off => Sys2Proof.Machine.execRead64 p off s
  | .writeLowWord p off w => Sys2Proof.Machine.execWriteLowWord p off w s
  | .writeHighWord p off w => Sys2Proof.Machine.execWriteHighWord p off w s
  | .commitGo p => Sys2Proof.Machine.execCommitGo p s
  | .commitCheckEnd p draftFault => Sys2Proof.Machine.execCommitCheckEnd p draftFault s
  | .discard p => Sys2Proof.Machine.execDiscard p s
  | .commitTask p depth => Sys2Proof.Machine.execCommitTask p depth s
  | .evtClear p mask => Sys2Proof.Machine.execEvtClear p mask s
  | .evtEnWrite p w => Sys2Proof.Machine.execEvtEnWrite p w s
  | .evtVecWrite p w => Sys2Proof.Machine.execEvtVecWrite p w s
  | .speedWindowEnd b cycles => Sys2Proof.Machine.execSpeedWindowEnd b cycles s
  | .rearm b => Sys2Proof.Machine.execRearm b s
  | .fastSample g rawV rawI => Sys2Proof.Machine.execFastSample g rawV rawI s
  | .dacUpdate g late => Sys2Proof.Machine.execDacUpdate g late s
  | .sashFrame b => Sys2Proof.Machine.execSashFrame b s
  | .sashComputation b => Sys2Proof.Machine.execSashComputation b s
  | .graceEnd g => Sys2Proof.Machine.execGraceEnd g s
  | .loopFreeze g depth => Sys2Proof.Machine.execLoopFreeze g depth s
  | .loopResume g depth => Sys2Proof.Machine.execLoopResume g depth s
  | .modeChange g => Sys2Proof.Machine.execModeChange g s
  | .loopReset g => Sys2Proof.Machine.execLoopReset g s
  | .release g => Sys2Proof.Machine.execRelease g s
  | .traceArm b via => Sys2Proof.Machine.execTraceArm b via s
  | .traceStop b via => Sys2Proof.Machine.execTraceStop b via s
  | .traceHalfWritten b => Sys2Proof.Machine.execTraceHalfWritten b s
  | .traceDataRead b wide => Sys2Proof.Machine.execTraceDataRead b wide s
  | .shutOpen g via => Sys2Proof.Machine.execShutOpen g via s
  | .openTaken g => Sys2Proof.Machine.execOpenTaken g s
  | .firstOpenSwitchOn g => Sys2Proof.Machine.execFirstOpenSwitchOn g s
  | .switchOnComplete g => Sys2Proof.Machine.execSwitchOnComplete g s
  | .shutClose g => Sys2Proof.Machine.execShutClose g s
  | .taskShutterClose g depth => Sys2Proof.Machine.execTaskShutterClose g depth s
  | .switchOffComplete g => Sys2Proof.Machine.execSwitchOffComplete g s
  | .vanaOutOfRange => Sys2Proof.Machine.execVanaOutOfRange s
  | .vanaInRange => Sys2Proof.Machine.execVanaInRange s
  | .railOutOfRange r => Sys2Proof.Machine.execRailOutOfRange r s
  | .railInRange b => Sys2Proof.Machine.execRailInRange b s
  | .changeSpan g depth => Sys2Proof.Machine.execChangeSpan g depth s
  | .spanMake g => Sys2Proof.Machine.execSpanMake g s
  | .spanScaleSwitch g => Sys2Proof.Machine.execSpanScaleSwitch g s
  | .spanBreak g => Sys2Proof.Machine.execSpanBreak g s
  | .slewStep g => Sys2Proof.Machine.execSlewStep g s
  | .progStart g via parity ahead => Sys2Proof.Machine.execProgStart g via parity ahead s
  | .progStop g via => Sys2Proof.Machine.execProgStop g via s
  | .progAdvance g via ahead => Sys2Proof.Machine.execProgAdvance g via ahead s
  | .progPrime g via => Sys2Proof.Machine.execProgPrime g via s
  | .primeDone g => Sys2Proof.Machine.execPrimeDone g s
  | .listDataWrite b entry => Sys2Proof.Machine.execListDataWrite b entry s
  | .dwellEnd g ahead => Sys2Proof.Machine.execDwellEnd g ahead s
  | .codexPoint g => Sys2Proof.Machine.execCodexPoint g s
  | .codexFetchDone g points => Sys2Proof.Machine.execCodexFetchDone g points s
  | .leadingEdge g => Sys2Proof.Machine.execLeadingEdge g s
  | .trailingEdge g => Sys2Proof.Machine.execTrailingEdge g s
  | .lvTripClear g => Sys2Proof.Machine.execLvTripClear g s
  | .precisionBoundary g => Sys2Proof.Machine.execPrecisionBoundary g s
  | .resultCapture g via => Sys2Proof.Machine.execResultCapture g via s
  | .laneChange g => Sys2Proof.Machine.execLaneChange g s
  | .inputChange g => Sys2Proof.Machine.execInputChange g s
  | .windowCrossing g w level => Sys2Proof.Machine.execWindowCrossing g w level s
  | .tripTimeRecord g w => Sys2Proof.Machine.execTripTimeRecord g w s
  | .sampledDecision g levelV levelI => Sys2Proof.Machine.execSampledDecision g levelV levelI s
  | .cmpClear g clrV clrI => Sys2Proof.Machine.execCmpClear g clrV clrI s
  | .blankingEnd g w => Sys2Proof.Machine.execBlankingEnd g w s
  | .lintelPeriod rails => Sys2Proof.Machine.execLintelPeriod rails s
  | .lintelEvalDone => Sys2Proof.Machine.execLintelEvalDone s
  | .lintelLimitsApply => Sys2Proof.Machine.execLintelLimitsApply s
  | .catSlotEnd b k raw => Sys2Proof.Machine.execCatSlotEnd b k raw s
  | .catResultPost b => Sys2Proof.Machine.execCatResultPost b s
  | .inject b k via => Sys2Proof.Machine.execInject b k via s
  | .xchkReset b => Sys2Proof.Machine.execXchkReset b s
  | .calibrate via => Sys2Proof.Machine.execCalibrate via s
  | .batchBegin b refMicrovolts => Sys2Proof.Machine.execBatchBegin b refMicrovolts s
  | .calHoldStart g => Sys2Proof.Machine.execCalHoldStart g s
  | .calStepDone g step => Sys2Proof.Machine.execCalStepDone g step s
  | .calRelease g => Sys2Proof.Machine.execCalRelease g s
  | .calHoldEnd g => Sys2Proof.Machine.execCalHoldEnd g s
  | .store => Sys2Proof.Machine.execStore s
  | .storeComplete readBackOk => Sys2Proof.Machine.execStoreComplete readBackOk s
  | .load => Sys2Proof.Machine.execLoad s
  | .abort => Sys2Proof.Machine.execAbort s
  | .journalLoad => Sys2Proof.Machine.execJournalLoad s
  | .loadDone => Sys2Proof.Machine.execLoadDone s
  | .transomEntry => Sys2Proof.Machine.execTransomEntry s
  | .transomHop parity => Sys2Proof.Machine.execTransomHop parity s
  | .delayExpiry line => Sys2Proof.Machine.execDelayExpiry line s
  | .trFire line => Sys2Proof.Machine.execTrFire line s
  | .trFireGrp k lines => Sys2Proof.Machine.execTrFireGrp k lines s
  | .timerStart k via => Sys2Proof.Machine.execTimerStart k via s
  | .timerStop k via => Sys2Proof.Machine.execTimerStop k via s
  | .timerExpiry k => Sys2Proof.Machine.execTimerExpiry k s
  | .shelfWrite b => Sys2Proof.Machine.execShelfWrite b s
  | .positionVisible b side => Sys2Proof.Machine.execPositionVisible b side s
  | .shfDataRead b words => Sys2Proof.Machine.execShfDataRead b words s
  | .shelfTimeout b => Sys2Proof.Machine.execShelfTimeout b s
  | .flush b => Sys2Proof.Machine.execFlush b s
  | .flushPoint b => Sys2Proof.Machine.execFlushPoint b s
  | .arm f via => Sys2Proof.Machine.execArm f via s
  | .folioStop f via => Sys2Proof.Machine.execFolioStop f via s
  | .trig f via => Sys2Proof.Machine.execTrig f via s
  | .folioReady f => Sys2Proof.Machine.execFolioReady f s
  | .triggerJudge f sample => Sys2Proof.Machine.execTriggerJudge f sample s
  | .folioComplete f => Sys2Proof.Machine.execFolioComplete f s
  | .folioEndedEarly f cause => Sys2Proof.Machine.execFolioEndedEarly f cause s
  | .folioFlushed f => Sys2Proof.Machine.execFolioFlushed f s
  | .stagingWord g prec => Sys2Proof.Machine.execStagingWord g prec s
  | .tagRead => Sys2Proof.Machine.execTagRead s
  | .tagDone errs => Sys2Proof.Machine.execTagDone errs s
  | .requestEnter port req => Sys2Proof.Machine.execRequestEnter port req s
  | .requestIssue sub busy => Sys2Proof.Machine.execRequestIssue sub busy s
  | .promoted sub => Sys2Proof.Machine.execPromoted sub s
  | .readReturn sub first again => Sys2Proof.Machine.execReadReturn sub first again s
  | .scrubRead => Sys2Proof.Machine.execScrubRead s
  | .scrubRestart => Sys2Proof.Machine.execScrubRestart s
  | .refresh sub => Sys2Proof.Machine.execRefresh sub s
  | .thermalRead chan quarters => Sys2Proof.Machine.execThermalRead chan quarters s
  | .srefEnter => Sys2Proof.Machine.execSrefEnter s
  | .srefExit => Sys2Proof.Machine.execSrefExit s
  | .srefExitDone failed => Sys2Proof.Machine.execSrefExitDone failed s
  | .reinit dimms => Sys2Proof.Machine.execReinit dimms s
  | .trainingDone sub passed => Sys2Proof.Machine.execTrainingDone sub passed s
  | .zeroingDone => Sys2Proof.Machine.execZeroingDone s
  | .retrain sub found => Sys2Proof.Machine.execRetrain sub found s
  | .retrainRetry sub found => Sys2Proof.Machine.execRetrainRetry sub found s
  | .fence mask => Sys2Proof.Machine.execFence mask s
  | .tcStore => Sys2Proof.Machine.execTcStore s
  | .tcStoreDone failures => Sys2Proof.Machine.execTcStoreDone failures s
  | .rateChangeStart => Sys2Proof.Machine.execRateChangeStart s
  | .rateDone => Sys2Proof.Machine.execRateDone s
  | .bar2Access offset op => Sys2Proof.Machine.execBar2Access offset op s
  | .bar2BaseWrite w => Sys2Proof.Machine.execBar2BaseWrite w s
  | .doorbell q w => Sys2Proof.Machine.execDoorbell q w s
  | .descriptorComplete q entry data => Sys2Proof.Machine.execDescriptorComplete q entry data s
  | .shelfDescTimeout q => Sys2Proof.Machine.execShelfDescTimeout q s
  | .dmaStop q => Sys2Proof.Machine.execDmaStop q s
  | .resume q => Sys2Proof.Machine.execResume q s
  | .busMasterEnableChange on msix ctl => Sys2Proof.Machine.execBusMasterEnableChange on msix ctl s
  | .msixUnmask v => Sys2Proof.Machine.execMsixUnmask v s
  | .corErr k => Sys2Proof.Machine.execCorErr k s
  | .uncErr k => Sys2Proof.Machine.execUncErr k s
  | .linkDown => Sys2Proof.Machine.execLinkDown s
  | .flr => Sys2Proof.Machine.execFlr s
  | .linkUp rate width => Sys2Proof.Machine.execLinkUp rate width s
  | .perstRelease => Sys2Proof.Machine.execPerstRelease s
  | .frameSend port => Sys2Proof.Machine.execFrameSend port s
  | .frameReceive port body crc arrival frac => Sys2Proof.Machine.execFrameReceive port body crc arrival frac s
  | .superPeriod => Sys2Proof.Machine.execSuperPeriod s
  | .ndkLoad => Sys2Proof.Machine.execNdkLoad s
  | .linkLost port => Sys2Proof.Machine.execLinkLost port s
  | .portLinkUp port => Sys2Proof.Machine.execPortLinkUp port s
  | .driveLine l depth => Sys2Proof.Machine.execDriveLine l depth s
  | .driveEnd l => Sys2Proof.Machine.execDriveEnd l s
  | .lineEdgeRaise l => Sys2Proof.Machine.execLineEdgeRaise l s
  | .send => Sys2Proof.Machine.execSend s
  | .msgRxRead => Sys2Proof.Machine.execMsgRxRead s
  | .faultLogEntry => Sys2Proof.Machine.execFaultLogEntry s
  | .fltAckWrite w => Sys2Proof.Machine.execFltAckWrite w s
  | .fltRearm => Sys2Proof.Machine.execFltRearm s
  | .bayReset b => Sys2Proof.Machine.execBayReset b s
  | .coreReset => Sys2Proof.Machine.execCoreReset s
  | .memoryReset => Sys2Proof.Machine.execMemoryReset s
  | .dmaReset => Sys2Proof.Machine.execDmaReset s
  | .resetDone => Sys2Proof.Machine.execResetDone s
  | .devicePowerUp straps flash => Sys2Proof.Machine.execDevicePowerUp straps flash s
  | .powerUpReset => Sys2Proof.Machine.execPowerUpReset s
  | .supply k => Sys2Proof.Machine.execSupply k s
  | .timebaseLock => Sys2Proof.Machine.execTimebaseLock s
  | .pdCtlWrite w => Sys2Proof.Machine.execPdCtlWrite w s
  | .pdSwitchOnStart => Sys2Proof.Machine.execPdSwitchOnStart s
  | .pdDone => Sys2Proof.Machine.execPdDone s
  | .pdSwitchOffStart => Sys2Proof.Machine.execPdSwitchOffStart s
  | .pdPowerOpen => Sys2Proof.Machine.execPdPowerOpen s
  | .pdSwitchOffDone => Sys2Proof.Machine.execPdSwitchOffDone s
  | .bootRecordRead => Sys2Proof.Machine.execBootRecordRead s
  | .preloadEntry => Sys2Proof.Machine.execPreloadEntry s
  | .flashRead => Sys2Proof.Machine.execFlashRead s
  | .flashProgram => Sys2Proof.Machine.execFlashProgram s
  | .flashErase => Sys2Proof.Machine.execFlashErase s
  | .flDone failed => Sys2Proof.Machine.execFlDone failed s
  | .triggerPinEdge k rising sub => Sys2Proof.Machine.execTriggerPinEdge k rising sub s
  | .registerRead addr words full => Sys2Proof.Machine.execRegisterRead addr words full s
  | .supplyInRange k => Sys2Proof.Machine.execSupplyInRange k s
  | .linkRateOrWidthChange rate width => Sys2Proof.Machine.execLinkRateOrWidthChange rate width s

end Sys2Proof.Machine
end

