-- ==== Sys2Proof/Machine/Step.lean ====
section
/-! DEFINITION. One step of the block: the command at the front of the queue, or one tick of the timebase when
no command waits. -/

namespace Sys2Proof.Machine

/-- One tick of the timebase (R5): nothing before it has locked (R488). (DESIGN CHOICE: log entry 1) -/
def tickOnce (s : State) : State :=
  if s.locked then { s with tick := s.tick + 1, time := s.time + 1 } else s

/-- One step. (DESIGN CHOICE: log entries 1, 2) -/
def step (s : State) : Host.Outcome State Fault Refusal :=
  match s.pending with
  | [] => .next (tickOnce s)
  | c :: rest => exec c { s with pending := rest }

/-- The state with a command in front of the queue. (DESIGN CHOICE: log entry 5) -/
def State.withCommand (s : State) (c : Instr) : State := { s with pending := c :: s.pending }

/-- The state with the command that a table word spells in front of its queue; unchanged where it spells none. (DESIGN
CHOICE: log entry 5) -/
def State.withFetchWord (s : State) (nbits w : Nat) : State :=
  match decodeTableWord nbits w with
  | some c => s.withCommand c
  | none => s

end Sys2Proof.Machine
end

