-- ==== Sys2Proof/Safety.lean ====
section
/-! DEFINITION. The terms in which claims about the block are put: stores in canonical form, live values within their
range checks, and frames. -/

namespace Sys2Proof.Machine

/-! ## Stores -/

/-- A register store in canonical form. -/
def storeWf (p : Page) (st : RegStore) : Bool := sparseWf (rwdReset p) st

/-- The stores of a page header in canonical form. -/
def hdrWf (p : Page) (h : PageHdr) : Bool :=
  storeWf p h.draft && storeWf p h.live && (h.captured.map (storeWf p)).getD true &&
    (h.staged.map (storeWf p)).getD true

/-- Every sparse store is in canonical form: rising keys, and nothing listed that an unlisted key reads as. DRAM, line
tags, the boot flash, list memory, and the drafts, live values, captured and checked values of every page. -/
structure CanonicalStores (s : State) : Prop where
  mem : memWf s.stk = true
  tags : sparseWf (fun _ => BitVec.allOnes 56) s.stk.tags = true
  flash : flashWf s.flash = true
  lists : ∀ b, sparseWf (fun _ => entryReset) (s.bay b).lists = true
  pages : ∀ p, hdrWf p (s.page p) = true

/-- Every checked field of a store holds a legal value (R37). -/
def legalStore (p : Page) (st : RegStore) : Bool :=
  (clampRules p).all fun r => r.fix (field (storeGet p st r.off) r.lsb r.width) == field (storeGet p st r.off) r.lsb
  r.width

/-- The live values of every page, and its checked values that await the commit task input, are legal (R39, R46). -/
def LegalPages (s : State) : Prop :=
  ∀ p : Page, legalStore p (s.page p).live = true ∧ ∀ v, (s.page p).staged = some v → legalStore p v = true

/-! ## What reaches a page -/

/-- A BAR0 access to page `p` is carried out: the link is up, and the page can be reached (R28, R431, R503). -/
def hostOpen (s : State) (p : Page) : Bool := s.host.linkUp && pageOpen s p

/-- A request that came by `v` to page `p` is carried out. -/
def viaOpen (v : Via) (s : State) (p : Page) : Bool := reaches v s && pageOpen s p

/-! ## Stacks at rest -/

/-- No request waits for Stacks, at its ports or at BAR2. -/
def NothingWaits (s : State) : Prop := s.stk.waiting = [] ∧ s.host.bar2Wait = []

/-- DRAM answers accesses to a line, and its subchannel can issue and holds no other request. -/
def LineFree (s : State) (line : Nat) : Prop :=
  ∃ i, lineAns s line = .dram i ∧ canIssue s i = true ∧ (s.sub i).queue = [] ∧ (s.sub i).reads = []

/-- Every line of `n` bytes from address `a` is free, ports P2 and P5 may each hold a request in a queue, and nothing
waits. -/
structure MemoryFree (s : State) (a n : Nat) : Prop where
  lines : ∀ l, l ∈ linesOf a n → LineFree s l
  ports : 0 < portMaxq s 2 ∧ 0 < portMaxq s 5
  waits : NothingWaits s

/-! ## Frames -/

/-- From `s` to `t` nothing changes but what reports an event: EVT bits that rise, MSI-X messages, raised sources,
detections for the fault log, and the count of free values taken. -/
structure ReportsOnly (s t : State) : Prop where
  rest :
    t = { s with pages := t.pages, host := t.host, transom := t.transom, mgmt := t.mgmt, out := t.out, free := t.free }
  pages :
    ∀ p, t.page p =
      { s.page p with evt := (t.page p).evt, setTick := (t.page p).setTick, setBits := (t.page p).setBits }
  evt : ∀ p, (s.page p).evt &&& (t.page p).evt = (s.page p).evt
  host : t.host = { s.host with msix := t.host.msix }
  transom : t.transom = { s.transom with raised := t.transom.raised }
  mgmt : t.mgmt = { s.mgmt with detected := t.mgmt.detected }
  out : t.out = { s.out with msgs := t.out.msgs }

/-- Beside reports only page `p` changes. -/
def PageFrame (p : Page) (s t : State) : Prop :=
  t = { s with pages := t.pages, host := t.host, out := t.out } ∧ (∀ q, q ≠ p → t.page q = s.page q) ∧
  t.host = { s.host with msix := t.host.msix } ∧ t.out = { s.out with msgs := t.out.msgs }

/-- Beside reports only channel `g` changes. -/
def ChanFrame (g : ChanNo) (s t : State) : Prop :=
  ReportsOnly { s with chans := t.chans } t ∧ ∀ h, h ≠ g → t.chan h = s.chan h

/-- Beside reports only what bay `b` holds beside its channels changes. -/
def BayFrame (b : BayNo) (s t : State) : Prop :=
  ReportsOnly { s with bays := t.bays } t ∧ ∀ c, c ≠ b → t.bay c = s.bay c

/-- Beside reports only folio `f` changes. -/
def FolioFrame (f : Fin 64) (s t : State) : Prop :=
  ReportsOnly { s with archive := t.archive } t ∧ t.archive = { s.archive with folios := t.archive.folios } ∧
  ∀ h, h ≠ f → t.folio h = s.folio h

/-- Channel `g`, its bay's Sash engine and what records its samples may change; the other channels, the live values of
every page, the clock and the device-wide blocks stay. -/
structure ChanWide (g : ChanNo) (s t : State) : Prop where
  chans : ∀ h, h ≠ g → t.chan h = s.chan h
  bays : ∀ b, b ≠ bayOf g → t.bay b = s.bay b
  live : ∀ p, (t.page p).live = (s.page p).live ∧ (t.page p).draft = (s.page p).draft
  clock : t.tick = s.tick ∧ t.time = s.time ∧ t.locked = s.locked
  blocks : t.ndolek = s.ndolek ∧ t.lintel = s.lintel ∧ t.acc = s.acc ∧ t.flash = s.flash ∧ t.power = s.power

/-- The EVT bit `n` of page `p` is 1. -/
def evtOn (t : State) (p : Page) (n : Nat) : Prop := (t.page p).evt.getLsbD n = true

end Sys2Proof.Machine
end

