-- ==== Sys2Proof/Certificates/Slice0/Obligations.lean ====
section
/-! DEFINITION. The statements for the provers. Every command has a clause whose conclusion is that `exec` answers a
next state, with what that state holds; the invariants and the whole-machine rules come first. -/

open Sys2Proof Sys2Proof.Machine

/-! ## The block as a whole -/

/-- A step runs the command at the front of the queue, on the state with the queue's rest. -/
def Obligations.StepRunsFrontCommand : Prop :=
  ∀ (s : State) (c : Instr) (rest : List Instr), s.pending = c :: rest →
    step s = exec c { s with pending := rest }

/-- With no command waiting, a step is one tick of a locked timebase, and idles before the timebase locks (R5, R488;
that the empty queue is a tick is a DESIGN CHOICE of the model, log entry 1). -/
def Obligations.EmptyQueueIsOneTick : Prop :=
  ∀ s : State, s.pending = [] →
    (s.locked = true → step s = .next { s with tick := s.tick + 1, time := s.time + 1 }) ∧
    (s.locked = false → step s = .next s)

/-- No command touches the queue of waiting commands. Model's choices that it rests on: log entry 2. -/
def Obligations.ExecLeavesTheQueue : Prop :=
  ∀ (c : Instr) (s t : State), exec c s = .next t → t.pending = s.pending

/-- Every well-formed command completes, and an ill-formed one either completes or stops with the fault `illFormed`:
nothing is refused. Model's choices that it rests on: log entries 3, 13. -/
def Obligations.WellFormedCommandsComplete : Prop :=
  ∀ (c : Instr) (s : State),
    (c.wf = true → ∃ t, exec c s = .next t) ∧ ((∃ t, exec c s = .next t) ∨ exec c s = .fault .illFormed)

/-- Every step keeps DRAM, the boot flash, list memory and the register stores of every page in canonical form.
Model's choices that it rests on: log entries 8, 9. -/
def Obligations.StepKeepsCanonicalStores : Prop :=
  ∀ s t : State, CanonicalStores s → step s = .next t → CanonicalStores t

/-- Every step keeps live values, and values that await the commit task, within their range checks (R37, R39, R46). -/
def Obligations.StepKeepsLegalLiveValues : Prop :=
  ∀ s t : State, CanonicalStores s → LegalPages s → step s = .next t → LegalPages t

/-- Both invariants hold after reset. Model's choices that it rests on: log entries 6, 7, 8. -/
def Obligations.ResetMeetsTheInvariants : Prop := CanonicalStores State.reset ∧ LegalPages State.reset

/-! ## Register pages: drafts, commits, events and 64-bit registers (chapter 2) -/

/-- GO captures the drafts; while a check runs, the commit waits (R36, R42). DISCARD copies every live value into its
draft and drops a staged commit; while a check runs the copy waits, and the staged commit is dropped (R43). Model's
choices that it rests on: log entry 24. -/
def Obligations.CommitGoAndDiscard : Prop :=
  (∀ (s : State) (p : Page), hostOpen s p = true →
    ∃ t, exec (.commitGo p) s = .next t ∧ PageFrame p s t ∧
      ((s.page p).captured = none → t.page p = { s.page p with captured := some (s.page p).draft }) ∧
      ((s.page p).captured ≠ none → t.page p = { s.page p with pending := true })) ∧
  ∀ (s : State) (p : Page), hostOpen s p = true →
    ∃ t, exec (.discard p) s = .next t ∧ PageFrame p s t ∧ (t.page p).live = (s.page p).live ∧
      (t.page p).staged = none ∧
      ((s.page p).captured = none → (t.page p).draft = (s.page p).live) ∧
      ((s.page p).captured ≠ none → (t.page p).draft = (s.page p).draft ∧ (t.page p).discardHeld = true)

/-- The end of a check: the checked values of the clamped drafts become live with SEQ, COMMIT_TIME and DONE, or are
staged when TASK_APPLY is 1 (a channel without a Booster takes reset values for its Booster words, R96); a lasting
fault of the draft storage aborts the commit and leaves the live values (R37 to R40, R44, R46). The commit task input
makes the staged values live in its tick; with nothing staged it sets TASK_EMPTY and changes no register value (R46,
R47). Model's choices that it rests on: log entries 4, 23. -/
def Obligations.CommitsApply : Prop :=
  (∀ (s : State) (p : Page) (c : RegStore), pageUp s p = true → (s.page p).captured = some c →
    lineHopped s p = false →
    ((s.page p).taskApply = false →
      ∃ t, exec (.commitCheckEnd p false) s = .next t ∧
        (t.page p).live = liveVals p (clampAll p c).1 ∧ (t.page p).seq = (s.page p).seq + 1 ∧
        (t.page p).commitTime = s.time ∧ (t.page p).aborted = false ∧ evtOn t p evtDone ∧
        ((clampAll p c).2 ≠ [] → evtOn t p evtClamped) ∧
        (t.page p).clampCount = BitVec.ofNat 16 (min (clampAll p c).2.length 0xFFFF) ∧
        ∀ q, q ≠ p → (t.page q).live = (s.page q).live ∧ (t.page q).seq = (s.page q).seq) ∧
    ((s.page p).taskApply = true →
      ∃ t, exec (.commitCheckEnd p false) s = .next t ∧
        (t.page p).staged = some (clampAll p c).1 ∧ (t.page p).live = (s.page p).live ∧
        (t.page p).seq = (s.page p).seq) ∧
    ∃ t, exec (.commitCheckEnd p true) s = .next t ∧
      (t.page p).aborted = true ∧ evtOn t p evtAborted ∧ ∀ q, (t.page q).live = (s.page q).live) ∧
  ∀ (s : State) (p : Page) (d : Nat), hasCommitTask p = true → pageOpen s p = true →
    (∀ v, (s.page p).staged = some v →
      ∃ t, exec (.commitTask p d) s = .next t ∧ (t.page p).live = liveVals p v ∧ (t.page p).seq = (s.page p).seq + 1 ∧
        (t.page p).commitTime = s.time ∧ (t.page p).staged = none ∧ evtOn t p evtDone) ∧
    ((s.page p).staged = none →
      ∃ t, exec (.commitTask p d) s = .next t ∧ evtOn t p evtTaskEmpty ∧ ReportsOnly s t)

/-- Writes of EVT, EVT_EN and EVT_VEC: a 1 clears its event bit unless hardware sets it in the same tick, the enables
take the implemented bits, and the vector number takes six bits (R50 to R52). A hardware event that rises while
enabled calls for the message of the page's vector: sent when MSI-X is on and nothing masks it, pending when masked,
lost when MSI-X is off (R52, R394). Model's choices that it rests on: log entries 21, 30. -/
def Obligations.EventsAndMessages : Prop :=
  (∀ (s : State) (p : Page) (w : Word), hostOpen s p = true →
    (∃ t, exec (.evtClear p w) s = .next t ∧ PageFrame p s t ∧
      t.page p = { s.page p with evt := (s.page p).evt &&& ~~~(w &&& ~~~justSet s p) }) ∧
    (∃ t, exec (.evtEnWrite p w) s = .next t ∧ PageFrame p s t ∧
      t.page p = { s.page p with evtEn := w &&& evtMask p }) ∧
    (∃ t, exec (.evtVecWrite p w) s = .next t ∧ PageFrame p s t ∧
      t.page p = { s.page p with vec := w.extractLsb' 0 6 })) ∧
  ∀ (s : State) (p : Page) (n : Nat), n < 32 → pageUp s p = true → (s.page p).evt.getLsbD n = false →
    (s.page p).evtEn.getLsbD n = true →
    let v : Fin 64 := ⟨(s.page p).vec.toNat, (s.page p).vec.isLt⟩
    let t := setEvt s p n
    evtOn t p n ∧
    (s.host.msixEn = false → t.out = s.out ∧ t.host = s.host) ∧
    (s.host.msixEn = true → s.host.funcMask = false → s.host.msix[v].masked = false →
      t.out.msgs = s.out.msgs ++
        [{ vector := (s.page p).vec, addr := s.host.msix[v].addr, data := s.host.msix[v].data }]) ∧
    (s.host.msixEn = true → s.host.funcMask = true ∨ s.host.msix[v].masked = true →
      t.out = s.out ∧ t.host.msix[v].pend = true)

/-- Reads of a 64-bit register: the low word's read answers it and arms a shadow of the high word of the same instant;
the high word's read answers the shadow, and clears the armed flag or sets STALE; a 64-bit read answers both words and
changes neither shadow nor flag (R54 to R56). Writes of a 64-bit register of type RW: the low word is held, and the
pair takes both words when the high word is written (R58): the tag address of the Archive, and an entry of list
memory. Both words of BAY_LIST_DATA written at one instant reach the list entry that BAY_LIST_PTR names, and no other
entry; the pointer advances when AUTOINC is 1 (R58, R106). Model's choices that it rests on: log entries 16, 121. -/
def Obligations.SixtyFourBitRegisters : Prop :=
  (∀ (s : State) (p : Page) (off : BitVec 12), hostOpen s p = true → pairLow p off.toNat = true →
    (∃ t, exec (.readLowWord p off) s = .next t ∧ t.out.read = [regWord s p off.toNat] ∧
    PageFrame p s { t with out := s.out } ∧
      (pairAt t p off.toNat).shadow = regWord s p (off.toNat + 4) ∧ (pairAt t p off.toNat).armed = true) ∧
    ((pairAt s p off.toNat).armed = true →
      ∃ t, exec (.readHighWord p (off + 4)) s = .next t ∧ t.out.read = [(pairAt s p off.toNat).shadow] ∧
        (pairAt t p off.toNat).armed = false ∧ (t.page p).evt = (s.page p).evt) ∧
    ((pairAt s p off.toNat).armed = false →
      ∃ t, exec (.readHighWord p (off + 4)) s = .next t ∧ t.out.read = [(pairAt s p off.toNat).shadow] ∧
        evtOn t p evtStale) ∧
    ∃ t, exec (.read64 p off) s = .next t ∧
      t.out.read = [regWord s p off.toNat, regWord s p (off.toNat + 4)] ∧ t.pages = s.pages) ∧
  (∀ (s : State) (w : Word) (b : BayNo), CanonicalStores s →
    (∀ (p : Page) (off : BitVec 12), hostOpen s p = true → pairRw p off.toNat = true →
      ∃ t, exec (.writeLowWord p off w) s = .next t ∧ PageFrame p s t ∧ (pairAt t p off.toNat).held = some w) ∧
    (∀ lo, hostOpen s .archive = true → (pairAt s .archive 0x060).held = some lo →
      ∃ t, exec (.writeHighWord .archive 0x064 w) s = .next t ∧
        t.archive.tagAddr = (w &&& 0x1FF) ++ (lo &&& 0xFFFFFFC0) ∧ (pairAt t .archive 0x060).held = none) ∧
    ∀ lo, hostOpen s (.bay b) = true → (pairAt s (.bay b) 0x088).held = some lo →
      ∃ t, exec (.writeHighWord (.bay b) 0x08C w) s = .next t ∧ (pairAt t (.bay b) 0x088).held = none ∧
        ∀ n, sparseGet (fun _ => entryReset) (t.bay b).lists n =
          if n = (s.bay b).listPtr.toNat % 2 ^ 17 then (w ++ lo : BitVec 64) &&& 0x00FFFFFF030FFFFF
          else sparseGet (fun _ => entryReset) (s.bay b).lists n) ∧
  ∀ (s : State) (b : BayNo) (e : BitVec 64), CanonicalStores s → hostOpen s (.bay b) = true →
    ∃ t, exec (.listDataWrite b e) s = .next t ∧ (∀ g, (t.chan g).prog = (s.chan g).prog) ∧
      (∀ c : Fin 32, c.val ≠ field (s.bay b).listPtr 12 5 → t.chan (chanOf b c) = s.chan (chanOf b c)) ∧
      (∀ g, bayOf g ≠ b → t.chan g = s.chan g) ∧ (∀ c, c ≠ b → t.bay c = s.bay c) ∧
      (∀ n, sparseGet (fun _ => entryReset) (t.bay b).lists n =
        if n = (s.bay b).listPtr.toNat % 2 ^ 17 then e &&& 0x00FFFFFF030FFFFF
        else sparseGet (fun _ => entryReset) (s.bay b).lists n) ∧
      ((s.bay b).listPtr.getLsbD 31 = false → (t.bay b).listPtr = (s.bay b).listPtr) ∧
      ((s.bay b).listPtr.getLsbD 31 = true →
        field (t.bay b).listPtr 0 12 = (field (s.bay b).listPtr 0 12 + 1) % 4096 ∧
        field (t.bay b).listPtr 12 20 = field (s.bay b).listPtr 12 20)

/-- A write TLP of one doubleword to an RWD register changes the implemented bits of its draft, and no live value; its
other bits keep their fixed values (R4, R36). A read of a register answers the word that it shows; a misaligned
access, or one with partial byte enables, is refused: a refused write changes no register value, a refused read
completes with data 0, and DEV_ACC records the first (R28, R35). The speed index of a bay: a window of 1,024 ticks
stores its count and keeps the lowest; REARM starts the minimum anew (R15). Model's choices that it rests on: log
entries 20, 114, 120. -/
def Obligations.RegisterAccessesAndSpeeds : Prop :=
  (∀ (s : State) (a : BitVec 24) (w : Word), CanonicalStores s → domUp s 0 = true → s.host.linkUp = true →
    (∀ (p : Page) (x : RwdWord), pageOf a.toNat = some p → pageOpen s p = true → rwd p (a.toNat % 4096) = some x →
      pairRw p (a.toNat % 4096) = false →
      ∃ t, exec (.registerWrite a [w] true) s = .next t ∧
      draftWord t p (a.toNat % 4096) = ((w &&& x.mask) ||| (x.reset &&& ~~~x.mask)) ∧
        (∀ o, o ≠ a.toNat % 4096 → draftWord t p o = draftWord s p o) ∧ ∀ q o, liveWord t q o = liveWord s q o) ∧
    (∀ (p : Page), pageOf a.toNat = some p → pageOpen s p = true → a.toNat % 4 = 0 →
    pairHigh p (a.toNat % 4096) = false →
      (∀ b, p = .shelf b → a.toNat % 4096 < 0x800) →
      ∃ t, exec (.registerRead a 1 true) s = .next t ∧ t.out.read = [regWord s p (a.toNat % 4096)]) ∧
    (a.toNat % 4 ≠ 0 →
      ∃ t, exec (.registerWrite a [w] true) s = .next t ∧ (t.chans = s.chans ∧ t.bays = s.bays) ∧ evtOn t .device 0 ∧
        ((s.page .device).evt.getLsbD 0 = false →
          t.mgmt.accAddr = a ∧ t.mgmt.accCause = 2 ∧ t.mgmt.accWrite = true)) ∧
    ∃ t, exec (.registerRead a 1 false) s = .next t ∧ t.out.read = [0] ∧ evtOn t .device 0) ∧
  ∀ (s : State) (b : BayNo) (n : BitVec 16),
    (bayUp s b = true → s.tick = (s.bay b).speedFrom + 1024 →
      ∃ t, exec (.speedWindowEnd b n) s = .next t ∧ BayFrame b s t ∧ (t.bay b).speed = n ∧ (t.bay b).speedValid = true ∧
        (t.bay b).speedFrom = s.tick ∧
        (t.bay b).speedMin = (if n.toNat < (s.bay b).speedMin.toNat then n else (s.bay b).speedMin)) ∧
    (hostOpen s (.bay b) = true → (s.bay b).speedFrom ≠ s.tick →
      ∃ t, exec (.rearm b) s = .next t ∧ BayFrame b s t ∧ (t.bay b).speedMin = 0xFFFF ∧
        (t.bay b).speed = (s.bay b).speed)

/-! ## The force path (chapter 3) -/

/-- Opening a shutter: an open request waits for the next loop-period boundary, at which the switch of a channel with
an established output begins to turn on; 16 ticks later it has its on-resistance (R85, R87). The first opening after
power-up: at the boundary FIXED is released and the output takes the committed mode; the switch begins to turn on one
loop period later, or two after a span change (R88, R89). Model's choices that it rests on: log entry 31. -/
def Obligations.ShutterOpens : Prop :=
  (∀ (s : State) (g : ChanNo),
    (∀ via, viaOpen via s (.channel g) = true → (s.chan g).force.openReq = none →
      ((s.chan g).force.closeTick.map Prod.fst) ≠ some s.tick →
      ∃ t, exec (.shutOpen g via) s = .next t ∧ ChanFrame g s t ∧ (t.chan g).force.openReq = some s.tick) ∧
    (∀ r, pageOpen s (.channel g) = true → (s.chan g).loop.modeReq = [] → (s.chan g).force.openReq = some r →
      r < s.tick → onLoopBoundary s g = true → shut s g = false → (s.chan g).force.firstOpen = none →
      (s.chan g).force.fixed = false → ((s.chan g).force.closeTick.map Prod.fst) ≠ some s.tick →
      (refusal s g = none →
        ∃ t, exec (.openTaken g) s = .next t ∧ ChanWide g s t ∧ (t.chan g).force.switch = .turningOn s.tick ∧
          (t.chan g).force.openReq = none) ∧
      ∀ cause, refusal s g = some cause →
        ∃ t, exec (.openTaken g) s = .next t ∧ ChanWide g s t ∧ (t.chan g).force.switch = (s.chan g).force.switch ∧
          (t.chan g).force.refuseCause = BitVec.ofNat 4 cause ∧ evtOn t (.channel g) evOpenRefused) ∧
    ∀ r, (s.chan g).force.switch = .turningOn r → s.tick = r + 16 →
      ∃ t, exec (.switchOnComplete g) s = .next t ∧ ChanFrame g s t ∧ (t.chan g).force.switch = .on) ∧
  ∀ (s : State) (g : ChanNo), pageOpen s (.channel g) = true →
    (∀ r, (s.chan g).loop.modeReq = [] → (s.chan g).force.openReq = some r → r < s.tick →
      onLoopBoundary s g = true → (s.chan g).force.switch = .off → (s.chan g).force.firstOpen = none →
      (s.chan g).force.fixed = true → ((s.chan g).force.closeTick.map Prod.fst) ≠ some s.tick → refusal s g = none →
      ∃ t, exec (.openTaken g) s = .next t ∧ (t.chan g).force.fixed = false ∧ (t.chan g).force.switch = .off ∧
        (t.chan g).loop.mode = modeOf (liveMode s g) ∧ (t.chan g).force.boostLive = liveBoost s g ∧
        (∀ h, h ≠ g → t.chan h = s.chan h) ∧
        ∃ x, (t.chan g).force.firstOpen = some x ∧ x.t0 = s.tick ∧
          x.period = loopPeriod (modeOf (liveMode s g)) (liveRate s g)) ∧
    ∀ x, (s.chan g).force.firstOpen = some x → s.tick = x.t0 + (if x.spanChange then 2 * x.period else x.period) →
      ((s.chan g).force.closeTick.map Prod.fst) ≠ some s.tick →
      ∃ t, exec (.firstOpenSwitchOn g) s = .next t ∧ ChanWide g s t ∧
        (t.chan g).force.switch = .turningOn s.tick ∧ (t.chan g).force.firstOpen = none

/-- Closing a shutter: from a closed switch, CLOSE, the shutter-close task and the loss of the bay's rails turn it off
at once with causes 0xA, 0x9 and 0x5, the last with SHUT_CLOSED; the off-resistance is reached nine ticks after a
tick-path source, and at the registered closing of an asynchronous one (R80, R81, R84). Supplies of the force side:
the loss of VANA puts every channel of a powered bay in the held state of R88 and closes its shutter with cause 0;
returns of VANA and of a bay's rails restore DEV_SUPPLY's bits (R442, R443, R498). Model's choices that it rests on:
log entries 32, 33, 38. -/
def Obligations.ShutterCloses : Prop :=
  (∀ (s : State) (g : ChanNo),
    (pageOpen s (.channel g) = true → (s.chan g).force.switch = .on →
      (s.host.linkUp = true → ∃ t, exec (.shutClose g) s = .next t ∧ ChanFrame g s t ∧
      (t.chan g).force.switch = .closing s.tick ∧
        (t.chan g).force.closeCause = 0xA) ∧
      ∀ d, ∃ t, exec (.taskShutterClose g d) s = .next t ∧ ChanFrame g s t ∧
        (t.chan g).force.switch = .closing s.tick ∧ (t.chan g).force.closeCause = 0x9) ∧
    (∀ vfp vfn, s.power.rails.getLsbD (bayOf g).val = true → bayUp s (bayOf g) = true → (s.chan g).force.switch = .on →
      ∃ t, exec (.railOutOfRange ⟨bayOf g, vfp, vfn⟩) s = .next t ∧ (t.chan g).force.switch = .closing s.tick ∧
        (t.chan g).force.closeCause = 5 ∧ evtOn t (.channel g) evShutClosed ∧
        t.power.rails.getLsbD (bayOf g).val = false ∧ ∀ h, bayOf h ≠ bayOf g → t.chan h = s.chan h) ∧
    (∀ r, (s.chan g).force.switch = .closing r → s.tick = r + 9 →
      ∃ t, exec (.switchOffComplete g) s = .next t ∧ ChanFrame g s t ∧ (t.chan g).force.switch = .off) ∧
    ∀ r, (s.chan g).force.switch = .tripClosing r →
      ∃ t, exec (.switchOffComplete g) s = .next t ∧ ChanFrame g s t ∧ (t.chan g).force.switch = .off) ∧
  ∀ (s : State) (b : BayNo),
    (s.power.powered = true → s.power.vana = true →
      ∃ t, exec .vanaOutOfRange s = .next t ∧ t.power = { s.power with vana := false } ∧
        ∀ g, bayUp s (bayOf g) = true →
          (t.chan g).force.fixed = true ∧ (t.chan g).force.spanLive = .e ∧ (t.chan g).force.dacCode = 0x40000 ∧
          (t.chan g).loop.mode = .idle ∧ shut t g = false ∧
          (shut s g = true → (t.chan g).force.closeCause = 0 ∧ evtOn t (.channel g) evShutClosed)) ∧
    (∃ t, exec .vanaInRange s = .next t ∧ t.power.vana = true ∧ t.chans = s.chans ∧ t.pages = s.pages) ∧
    ∃ t, exec (.railInRange b) s = .next t ∧ t.chans = s.chans ∧
      ∀ k : BayNo, t.power.rails.getLsbD k.val = (s.power.rails.getLsbD k.val || decide (k = b))

/-- The change-span task toggles the selector and is a span request; on a Booster channel it only sets SPAN_IGNORED
(R67, R78). A span change: the make at a loop-period boundary, the change of scale one loop period later, the break 16
ticks after that with SPAN_DONE; a target equal to the live span causes none; when the field in force names another
span at the end of a change, a new change is to begin (R69 to R71). Model's choices that it rests on: log entry 36. -/
def Obligations.SpanChanges : Prop :=
  (∀ (s : State) (g : ChanNo) (d : Nat), pageOpen s (.channel g) = true →
    (isBooster s g = false → (s.chan g).force.fixed = false → (s.chan g).force.spanReq = none →
      ∃ t, exec (.changeSpan g d) s = .next t ∧ ChanFrame g s t ∧ (t.chan g).force.sel = !(s.chan g).force.sel ∧
        (t.chan g).force.spanReq =
          some { first := s.tick, last := s.tick, held := (s.chan g).force.spanChange.isSome } ∧
        (t.chan g).force.spanLive = (s.chan g).force.spanLive) ∧
    (isBooster s g = true →
      ∃ t, exec (.changeSpan g d) s = .next t ∧ ReportsOnly s t ∧ evtOn t (.channel g) evSpanIgnored)) ∧
  ∀ (s : State) (g : ChanNo), pageUp s (.channel g) = true → (s.chan g).loop.modeReq = [] →
    (∀ r, (s.chan g).force.spanReq = some r → r.first < s.tick → onLoopBoundary s g = true →
      (s.chan g).force.fixed = false → (s.chan g).force.boostLive = false → calDriving s g = false →
      (s.chan g).force.spanChange = none →
      ∃ t, exec (.spanMake g) s = .next t ∧ ChanFrame g s t ∧ (t.chan g).force.spanReq = none ∧
        (t.chan g).force.spanLive = (s.chan g).force.spanLive ∧
        (spanTarget s g = (s.chan g).force.spanLive → (t.chan g).force.spanChange = none) ∧
        (spanTarget s g ≠ (s.chan g).force.spanLive →
          (t.chan g).force.spanChange =
            some { old := (s.chan g).force.spanLive, new := spanTarget s g, sel := (s.chan g).force.sel, make := s.tick
                   period := chanPeriod s g, scaled := false })) ∧
    (∀ x, (s.chan g).force.spanChange = some x → x.scaled = false → s.tick = x.make + x.period →
      ∃ t, exec (.spanScaleSwitch g) s = .next t ∧ ChanWide g s t ∧ (t.chan g).force.spanLive = x.new ∧
        (t.chan g).force.spanChange = some { x with scaled := true } ∧ (t.chan g).meas.scaleTime = s.time ∧
        evtOn t (.channel g) evScaleChanged) ∧
    ∀ x, (s.chan g).force.spanChange = some x → x.scaled = true → s.tick = x.make + x.period + 16 →
      ∃ t, exec (.spanBreak g) s = .next t ∧ ChanFrame g s t ∧ (t.chan g).force.spanChange = none ∧
        (t.chan g).force.changes = (s.chan g).force.changes + 1 ∧ evtOn t (.channel g) evSpanDone ∧
        ((s.chan g).force.spanReq = none → isBooster s g = false → spanTarget s g ≠ (s.chan g).force.spanLive →
          (t.chan g).force.spanReq = some { first := s.tick, last := s.tick, held := true })

/-- A step of the slew limiter moves its output by STEP towards the target, or onto it when it is no more than STEP
away or STEP is 0 (R92). The DAC takes the newest code that it sees once in a loop period, two ticks after a fast
sample; committed inputs take effect at a loop-period boundary, where both windows are blanked for 32 ticks, and
committed lanes at a frame boundary (R60, R73, R167, R175, R185, R202). Model's choices that it rests on: log entries
37, 39, 41, 131. -/
def Obligations.LimiterAndDac : Prop :=
  (∀ (s : State) (g : ChanNo), (s.chan g).slew.next = some s.tick → (s.chan g).loop.modeReq = [] →
    ((s.chan g).slew.undo.map Prod.fst) ≠ some s.tick →
    ∃ t, exec (.slewStep g) s = .next t ∧ ChanFrame g s t ∧ (t.chan g).slew.target = (s.chan g).slew.target ∧
      (t.chan g).force = (s.chan g).force ∧
      let d := codeInt (s.chan g).slew.target - codeInt (s.chan g).slew.out
      let step := slewStepSize s g
      (step = 0 ∨ d.natAbs ≤ step →
        (t.chan g).slew.out = (s.chan g).slew.target ∧ (t.chan g).slew.next = none) ∧
      (¬(step = 0 ∨ d.natAbs ≤ step) →
        codeInt (t.chan g).slew.out = codeInt (s.chan g).slew.out + (if 0 < d then (step : Int) else -(step : Int)) ∧
        (t.chan g).slew.next = some (s.tick + slewInterval s g))) ∧
  ∀ (s : State) (g : ChanNo), pageUp s (.channel g) = true →
    (∀ late code, s.locked = true → s.time.toNat % 4 = 2 → (s.chan g).force.fixed = false → dacTook s g = false →
      calDriving s g = false → seenCode s g late = some code →
      ∃ t, exec (.dacUpdate g late) s = .next t ∧ ChanWide g s t ∧ (t.chan g).force.dacCode = code ∧
        (t.chan g).force.dacTaken = some s.tick ∧ t.pages = s.pages) ∧
    (∀ r b, ((s.chan g).force.boostReq.filter fun x => decide (x.1 < s.tick)).getLast? = some (r, b) →
      onLoopBoundary s g = true →
      ∃ t, exec (.inputChange g) s = .next t ∧ ChanWide g s t ∧ (t.chan g).force.boostLive = b ∧
        (t.chan g).force.boostReq = ((s.chan g).force.boostReq.filter fun x => decide (s.tick ≤ x.1)) ∧
        ((s.chan g).force.boostLive ≠ b →
          (t.chan g).meas.scaleTime = s.time ∧ evtOn t (.channel g) evScaleChanged ∧
          (domUp s 3 = true → (t.chan g).lintel = 0xFFFF) ∧ ∀ w, s.tick + 32 ≤ (t.win g w).blankUntil)) ∧
    ∀ r fsel psel, ((s.chan g).meas.laneReq.filter fun x => decide (x.1 < s.tick)).getLast? = some (r, fsel, psel) →
      onFrame s = true →
      ∃ t, exec (.laneChange g) s = .next t ∧ ChanWide g s t ∧ (t.chan g).meas.flane = fsel ∧
        (t.chan g).meas.plane = psel ∧
        (t.chan g).meas.laneReq = ((s.chan g).meas.laneReq.filter fun x => decide (s.tick ≤ x.1))

/-! ## The Sash loop engine (chapter 5) -/

/-- A frame boundary: the frame that ends is settled (the due channels that were not reached count an overrun, the
first of them becoming the rotation point), and the new frame lists the channels due; one whose loop-feed word was
lost is not to be reached (R128 to R130, R423). Model's choices that it rests on: log entries 51, 78. -/
def Obligations.SashFrameBoundary : Prop :=
  ∀ (s : State) (b : BayNo), pageUp s (.sash b) = true → onFrame s = true →
    (s.bay b).sash.frameStart ≠ some s.tick →
    ∃ t, exec (.sashFrame b) s = .next t ∧ (t.bay b).sash.frameStart = some s.tick ∧
      (t.bay b).sash.frameTime = s.time ∧ (t.bay b).sash.reached = 0 ∧
      (t.bay b).sash.todo = (dueList t b).filter (fun c => !(t.bay b).sash.noFeed.contains c) ∧
      (t.bay b).sash.due = (dueList t b).length ∧ (∀ g, bayOf g ≠ b → t.chan g = s.chan g) ∧
      (∀ c, c ≠ b → t.bay c = s.bay c) ∧
      ∀ c rest, (s.bay b).sash.frameStart ≠ none → notReached (s.bay b).sash = c :: rest →
        (t.bay b).sash.rotate = c ∧ (t.bay b).sash.overruns = (s.bay b).sash.overruns + 1 ∧ evtOn t (.sash b) 0 ∧
        evtOn t (.channel (chanOf b c)) evOverrun

/-- A computation of a due channel in FV: the control law of R133 on the error of R137 gives CORR and the integrator,
and one code enters the DAC-code queue; the channel leaves the list of due channels (R128, R133, R137). Model's
choices that it rests on: log entry 51. -/
def Obligations.SashComputesTheControlLaw : Prop :=
  ∀ (s : State) (b : BayNo) (r : Nat) (c : Fin 32) (rest : List (Fin 32)),
    pageUp s (.sash b) = true → (s.bay b).sash.frameStart = some r → (s.bay b).sash.todo = c :: rest →
    r < s.tick → onFrame s = false → 0 < boxSamples (s.chan (chanOf b c)).meas.boxes →
    (s.bay b).sash.dacq.length < queueWords →
    ∃ t, exec (.sashComputation b) s = .next t ∧ (t.bay b).sash.todo = rest ∧
      (t.bay b).sash.reached = (s.bay b).sash.reached + 1 ∧ (∀ h, h ≠ chanOf b c → t.chan h = s.chan h) ∧
      ((s.chan (chanOf b c)).loop.lastState = .run → (s.chan (chanOf b c)).loop.mode = .fv →
        (s.chan (chanOf b c)).loop.rescale = none →
        let g := chanOf b c
        let l := (s.chan g).loop
        let n := 2 ^ l.rate
        let e := (fvError (16 * codeInt l.ff - (feedbackV s g n : Nat)) (0x800000 + 64 * (hiUse s g : Nat))
          (0x800000 - 64 * (loUse s g : Nat)) (feedbackI s g n : Nat) (live s (.channel g) 0x19C 0 16)).1
        let o := sashLaw (lowerCoef s g) l.lower e
        (t.chan g).loop.corr = code20 o.corr ∧ (t.chan g).loop.lower.ist = o.st.ist ∧
          (t.chan g).loop.lower.dst = o.st.dst ∧ (t.chan g).loop.lower.eprev = o.e ∧
          ∃ code, (t.bay b).sash.dacq = (s.bay b).sash.dacq ++ [(c, code, s.tick)])

/-- The end of a grace: a frozen feedback is lost (HELD, LOST counted, FEEDBACK_LOST, the shutter closes with cause
0x4); an open sense that has recovered is counted as transient (R154, R155). Requests to the loop wait for their
boundary: freeze, resume, RESET and RELEASE are noted with their tick; a committed MODE, RATE and DIV take effect
together at a boundary of the new loop period (R144, R145, R151, R156). Model's choices that it rests on: log entry
50. -/
def Obligations.LoopModes : Prop :=
  (∀ (s : State) (g : ChanNo) (x : Grace), pageUp s (.channel g) = true → (s.chan g).loop.grace = some x →
    x.endAt = some s.tick →
    (x.openSense = false →
      ∃ t, exec (.graceEnd g) s = .next t ∧ (t.chan g).loop.held = true ∧ (t.chan g).loop.grace = none ∧
        (t.chan g).loop.lost = (s.chan g).loop.lost + 1 ∧ (t.chan g).loop.cause = 2 ∧
        evtOn t (.channel g) evFeedbackLost ∧ (∀ h, h ≠ g → t.chan h = s.chan h) ∧
        ((s.chan g).force.switch = .on →
          (t.chan g).force.switch = .closing s.tick ∧ (t.chan g).force.closeCause = 4)) ∧
    (x.openSense = true → 0 < x.micros → senseRecovered (settleDue g s) g = true →
      ∃ t, exec (.graceEnd g) s = .next t ∧ (t.chan g).loop.grace = none ∧
        (t.chan g).loop.held = (s.chan g).loop.held ∧
        (t.chan g).loop.transient = (s.chan g).loop.transient + 1)) ∧
  ∀ (s : State) (g : ChanNo),
    (pageOpen s (.channel g) = true →
      (∀ d, ∃ t, exec (.loopFreeze g d) s = .next t ∧ ChanFrame g s t ∧
        (t.chan g).loop = { (s.chan g).loop with freezeReq := (s.chan g).loop.freezeReq ++ [(s.tick, true)] }) ∧
      (∀ d, ∃ t, exec (.loopResume g d) s = .next t ∧ ChanFrame g s t ∧
        ((s.tick, true) ∉ (s.chan g).loop.freezeReq →
          (t.chan g).loop = { (s.chan g).loop with freezeReq := (s.chan g).loop.freezeReq ++ [(s.tick, false)] }) ∧
        ((s.tick, true) ∈ (s.chan g).loop.freezeReq → (t.chan g).loop = (s.chan g).loop)) ∧
      (s.host.linkUp = true → (s.chan g).loop.resetReq = none →
        ∃ t, exec (.loopReset g) s = .next t ∧ ChanFrame g s t ∧
          (t.chan g).loop = { (s.chan g).loop with resetReq := some s.tick }) ∧
      (s.host.linkUp = true → (s.chan g).loop.held = true → (s.chan g).loop.releaseReq = none →
        ∃ t, exec (.release g) s = .next t ∧ ChanFrame g s t ∧
          (t.chan g).loop = { (s.chan g).loop with releaseReq := some s.tick })) ∧
    ∀ r m rate div, pageUp s (.channel g) = true → (s.chan g).loop.modeReq = [(r, m, rate, div)] → r < s.tick →
      (s.chan g).force.fixed = false → onMult s (loopPeriod m rate) = true →
      ∃ t, exec (.modeChange g) s = .next t ∧ ChanWide g s t ∧ (t.chan g).loop.mode = m ∧
        (t.chan g).loop.rate = rate ∧ (t.chan g).loop.div = div ∧ (t.chan g).loop.modeReq = []

/-- The margin trace: arm and stop requests wait for a frame boundary; a full half is in the DRAM ring, with
HALF_DONE, once every line of it has been written; a read of the high word, or of both words, of the trace data
advances RDPTR (R158, R159, R161). Model's choices that it rests on: log entries 53, 130. -/
def Obligations.MarginTrace : Prop :=
  ∀ (s : State) (b : BayNo),
    (∀ via, viaOpen via s (.sash b) = true → (s.bay b).sash.trace.running = false → (s.bay b).sash.trace.armReq = none →
      ∃ t, exec (.traceArm b via) s = .next t ∧ BayFrame b s t ∧
        (t.bay b).sash = { (s.bay b).sash with trace := { (s.bay b).sash.trace with armReq := some s.tick } }) ∧
    (∀ via, viaOpen via s (.sash b) = true → (s.bay b).sash.trace.stopReq = none →
      ∃ t, exec (.traceStop b via) s = .next t ∧ BayFrame b s t ∧
        (t.bay b).sash = { (s.bay b).sash with trace := { (s.bay b).sash.trace with stopReq := some s.tick } }) ∧
    (pageUp s (.sash b) = true → (s.bay b).sash.trace.spilling ≠ [] → memServes s = true →
      (let a := traceBase s b + (s.bay b).sash.trace.halves.toNat * 262144 % traceRing s b
       let bytes := (s.bay b).sash.trace.spilling.flatMap fun e => (leBytes 8 e.toNat).map some
       writesUnderWay (writeBytes 3 (.trace b) a (a / 64) bytes (fun _ => false) [] s) (.trace b) = false) →
      ∃ t, exec (.traceHalfWritten b) s = .next t ∧ evtOn t (.sash b) 3 ∧ t.chans = s.chans ∧
        (t.bay b).sash.trace.halves = (s.bay b).sash.trace.halves + 1 ∧ ∀ c, c ≠ b → t.bay c = s.bay c) ∧
    (hostOpen s (.sash b) = true →
      (∃ t, exec (.traceDataRead b true) s = .next t ∧ t.out.read = [lo32 (traceEntry s b), hi32 (traceEntry s b)] ∧
        (t.bay b).sash.trace = { (s.bay b).sash.trace with rdptr := (s.bay b).sash.trace.rdptr + 1 }) ∧
      ∃ t, exec (.traceDataRead b false) s = .next t ∧ t.out.read = [(pairAt s (.sash b) 0x080).shadow] ∧
        (t.bay b).sash.trace = { (s.bay b).sash.trace with rdptr := (s.bay b).sash.trace.rdptr + 1 })

/-! ## Setpoint programs (chapter 4) -/

/-- Sweep lists: a start makes the entry at START current, or stops with PROG_FAULT on a parity error there that
persists; an advance or the end of a dwell makes the next entry in the running order current, each for its dwell
(R101, R107 to R112). Model's choices that it rests on: log entries 45, 116. -/
def Obligations.SweepListSteps : Prop :=
  ∀ (s : State) (g : ChanNo), srcSel s g = 1 →
    (∀ via par ahead, viaOpen via s (.channel g) = true → (s.chan g).prog.stopTick ≠ some s.tick →
      progSnapNow s g = none → par ≠ .lasting →
      let e := listEntry s g (swpStart s g)
      ∃ t, exec (.progStart g via par ahead) s = .next t ∧ ChanFrame g s t ∧ (t.chan g).prog.running = true ∧
        (t.chan g).prog.done = false ∧ (t.chan g).prog.index.toNat = swpStart s g ∧ (t.chan g).prog.pass = 0 ∧
        (t.chan g).prog.swpVal = entrySetpt e ∧
        (t.chan g).prog.dwellAt = some (s.tick + dwellTicks (swpDunit s g) e)) ∧
    (∀ via ahead, viaOpen via s (.channel g) = true → (s.chan g).prog.stopTick ≠ some s.tick →
      progSnapNow s g = none →
      ∃ t, exec (.progStart g via .lasting ahead) s = .next t ∧ ChanFrame g s t ∧ (t.chan g).prog.running = false ∧
        (t.chan g).prog.fault = true ∧ (t.chan g).prog.swpVal = (s.chan g).slew.target ∧
        evtOn t (.channel g) evProgFault) ∧
    (∀ via ahead, viaOpen via s (.channel g) = true → (s.chan g).prog.running = true →
      (s.chan g).prog.startTick ≠ some s.tick → (s.chan g).prog.dwellEnded ≠ some s.tick →
      (swpAdv s g ≠ 0 ∨ entryWait (s.chan g).prog.cur = true) → (s.chan g).prog.index.toNat ≠ swpEnd s g →
      swpFailed s g (swpNext s g (s.chan g).prog.index.toNat) = false →
      let n := swpNext s g (s.chan g).prog.index.toNat
      ∃ t, exec (.progAdvance g via ahead) s = .next t ∧ ChanFrame g s t ∧ (t.chan g).prog.index.toNat = n ∧
        (t.chan g).prog.swpVal = entrySetpt (swpFetched s g n) ∧ (t.chan g).prog.running = true ∧
        (t.chan g).prog.dwellAt = some (s.tick + dwellTicks (swpDunit s g) (swpFetched s g n))) ∧
    (∀ ahead, (s.chan g).prog.running = true → (s.chan g).prog.dwellAt = some s.tick →
      (swpAdv s g ≠ 1 → entryWait (s.chan g).prog.cur = false → (s.chan g).prog.index.toNat ≠ swpEnd s g →
        swpFailed s g (swpNext s g (s.chan g).prog.index.toNat) = false →
        let n := swpNext s g (s.chan g).prog.index.toNat
        ∃ t, exec (.dwellEnd g ahead) s = .next t ∧ ChanFrame g s t ∧ (t.chan g).prog.index.toNat = n ∧
          (t.chan g).prog.swpVal = entrySetpt (swpFetched s g n) ∧
          (t.chan g).prog.dwellAt = some (s.tick + dwellTicks (swpDunit s g) (swpFetched s g n))) ∧
      (swpAdv s g = 1 ∨ entryWait (s.chan g).prog.cur = true →
        ∃ t, exec (.dwellEnd g ahead) s = .next t ∧ ChanFrame g s t ∧
          (t.chan g).prog = { (s.chan g).prog with dwellAt := none }))

/-- Codex playback: priming loads the first points, a refill the next ones, once their lines have been read; each
point interval makes a point of the window current (of a table changed since its prime an old or the new one), a point
that the window does not hold is a miss, and a poisoned one stops the program with PROG_FAULT (R115, R117, R118,
R120). Model's choices that it rests on: log entries 43, 44, 125. -/
def Obligations.CodexPlayback : Prop :=
  ∀ (s : State) (g : ChanNo), srcSel s g = 2 →
    (∀ via, viaOpen via s (.channel g) = true → (s.chan g).prog.running = false →
      ∃ t, exec (.progPrime g via) s = .next t ∧ (t.chan g).prog = { (s.chan g).prog with priming := true }) ∧
    ((s.chan g).prog.priming = true →
      (∀ w s1, cdxLoad g (List.range (min (cdxLen s g) 4096)) s = some (w, s1) →
        ∃ t, exec (.primeDone g) s = .next t ∧ (t.chan g).prog.ready = true ∧ (t.chan g).prog.priming = false ∧
          (t.chan g).prog.primed = w ∧ w.map Prod.fst = List.range (min (cdxLen s g) 4096) ∧
          ∀ h, h ≠ g → t.chan h = s.chan h) ∧
      (cdxLoad g (List.range (min (cdxLen s g) 4096)) s = none → exec (.primeDone g) s = .next (memWake s))) ∧
    (∀ n, (s.chan g).prog.running = true →
      let l := cdxAhead s g (((s.chan g).prog.window.getLast?.map Prod.fst).getD (s.chan g).prog.point)
        (min n (4096 - (s.chan g).prog.window.length))
      (∀ w s1, cdxLoad g l s = some (w, s1) →
        ∃ t, exec (.codexFetchDone g n) s = .next t ∧ (t.chan g).prog.window = (s.chan g).prog.window ++ w ∧
          w.map Prod.fst = l ∧ ∀ h, h ≠ g → t.chan h = s.chan h) ∧
      (cdxLoad g l s = none → exec (.codexFetchDone g n) s = .next (memWake s))) ∧
    ((s.chan g).prog.running = true → (s.chan g).prog.pointAt = some s.tick →
      (s.chan g).prog.point + 1 < cdxLen s g →
      (∀ w rest, cdxDrop ((s.chan g).prog.point + 1) (s.chan g).prog.window = ((s.chan g).prog.point + 1,
      some w) :: rest →
        ∃ t, exec (.codexPoint g) s = .next t ∧ ChanFrame g s t ∧ (t.chan g).prog.point = (s.chan g).prog.point + 1 ∧
          (∃ v ∈ w :: cdxMix s g ((s.chan g).prog.point + 1) w, (t.chan g).prog.cdxVal = v.extractLsb' 0 20) ∧
          (t.chan g).prog.window = rest ∧
          (t.chan g).prog.pointAt = some (s.tick + cdxInt s g)) ∧
      (∀ rest, cdxDrop ((s.chan g).prog.point + 1) (s.chan g).prog.window = ((s.chan g).prog.point + 1, none) :: rest →
        ∃ t, exec (.codexPoint g) s = .next t ∧ ChanFrame g s t ∧ (t.chan g).prog.running = false ∧
          (t.chan g).prog.fault = true ∧ (t.chan g).prog.cdxVal = (s.chan g).prog.cdxVal ∧
          (pageUp s (.channel g) = true → evtOn t (.channel g) evProgFault)) ∧
      (cdxDrop ((s.chan g).prog.point + 1) (s.chan g).prog.window = [] →
        ∃ t, exec (.codexPoint g) s = .next t ∧ ChanFrame g s t ∧ (t.chan g).prog.point = (s.chan g).prog.point + 1 ∧
          (t.chan g).prog.cdxVal = (s.chan g).prog.cdxVal ∧
          (t.chan g).prog.misses = (s.chan g).prog.misses + 1 ∧ (pageUp s (.channel g) = true →
          evtOn t (.channel g) evCodexMiss)))

/-- Louvre pulses: a start waits DELAY ticks, and with DELAY 0 its first leading edge falls in its own tick; a leading
edge presents the pulse level for WIDTH ticks, and a trailing edge counts a pulse and ends the program at COUNT (R121,
R122). The stop task halts the running program, which holds its value; a start on the register source is ignored with
PROG_IGNORED; a trip latch whose input is not asserted clears (R101, R102, R125). Model's choices that it rests on:
log entry 2. -/
def Obligations.LouvreAndProgramEnds : Prop :=
  (∀ (s : State) (g : ChanNo), srcSel s g = 3 →
    (∀ via par ahead, viaOpen via s (.channel g) = true → (s.chan g).prog.stopTick ≠ some s.tick →
      progSnapNow s g = none →
      ∃ t, exec (.progStart g via par ahead) s = .next t ∧ ChanFrame g s t ∧ (t.chan g).prog.running = true ∧
        (t.chan g).prog.pulses = 0 ∧
        (0 < lvDelay s g →
          (t.chan g).prog.leadAt = some (s.tick + lvDelay s g) ∧ (t.chan g).prog.lvHigh = false) ∧
        (lvDelay s g = 0 →
          (t.chan g).prog.lvHigh = true ∧ (t.chan g).prog.trailAt = some (s.tick + lvWidth s g))) ∧
    ((s.chan g).prog.running = true → (s.chan g).prog.leadAt = some s.tick →
      ∃ t, exec (.leadingEdge g) s = .next t ∧ ChanFrame g s t ∧ (t.chan g).prog.lvHigh = true ∧
        (t.chan g).prog.trailAt = some (s.tick + lvWidth s g) ∧
        (lvCount s g = 0 → (t.chan g).prog.leadAt = some (s.tick + lvPeriodEff s g))) ∧
    ((s.chan g).prog.running = true → (s.chan g).prog.trailAt = some s.tick →
      ∃ t, exec (.trailingEdge g) s = .next t ∧ ChanFrame g s t ∧ (t.chan g).prog.lvHigh = false ∧
        (t.chan g).prog.pulses = (s.chan g).prog.pulses + 1 ∧
        (lvCount s g = 0 → (t.chan g).prog.running = true) ∧
        (lvCount s g ≠ 0 → lvCount s g ≤ ((s.chan g).prog.pulses + 1).toNat →
          (t.chan g).prog.running = false ∧ (t.chan g).prog.done = true))) ∧
  ∀ (s : State) (g : ChanNo), pageOpen s (.channel g) = true →
    (∀ via, reaches via s = true → (s.chan g).prog.running = true → (s.chan g).prog.startTick ≠ some s.tick →
      ∃ t, exec (.progStop g via) s = .next t ∧ ChanFrame g s t ∧ (t.chan g).prog.running = false ∧
        (t.chan g).prog.stopTick = some s.tick ∧ (t.chan g).prog.swpVal = (s.chan g).prog.swpVal ∧
        (t.chan g).prog.cdxVal = (s.chan g).prog.cdxVal ∧ (t.chan g).prog.lvHigh = false) ∧
    (∀ via par ahead, reaches via s = true → srcSel s g = 0 →
      ∃ t, exec (.progStart g via par ahead) s = .next t ∧ ReportsOnly s t ∧ evtOn t (.channel g) evProgIgnored) ∧
    (s.host.linkUp = true → (s.chan g).prog.tripped = true → tripInput s g = false →
      ∃ t, exec (.lvTripClear g) s = .next t ∧ ChanFrame g s t ∧ (t.chan g).prog.tripped = false ∧
        (t.chan g).prog.trips = (s.chan g).prog.trips)

/-! ## The measure path and the window comparators (chapters 6 and 7) -/

/-- A fast sample takes its place in the converter with its span and conditions, and the sample whose four ticks have
passed is corrected and feeds both fast codes (R165, R168, R169, R174). Two ticks after a precision boundary both
lanes' values form, and an item that the boundary sends takes the next sequence number; a capture waits for its
boundary, and a second one merges (R179, R186 to R188). Model's choices that it rests on: log entries 40, 52, 55. -/
def Obligations.Sampling : Prop :=
  (∀ (s : State) (g : ChanNo) (rawV rawI : BitVec 18), pageUp s (.channel g) = true → onMult s 4 = true →
    ∃ t, exec (.fastSample g rawV rawI) s = .next t ∧ ChanWide g s t ∧
      (∃ i, (t.chan g).meas.inflight = some i ∧ i.tick = s.tick ∧ i.time = s.time ∧ i.rawV = rawV ∧ i.rawI = rawI ∧
        i.span = (s.chan g).force.spanLive ∧ i.closed = closedNow s g ∧ (t.chan g).meas.pairV = i.pairV) ∧
      ∀ i, (s.chan g).meas.inflight = some i → i.tick + 4 ≤ s.tick →
        (t.chan g).meas.fastV = fastCode i.rawV (correctRaw zeroV24 i.rawV i.pairV).1 ∧
        (t.chan g).meas.fastI = fastCode i.rawI (correctRaw zeroI24 i.rawI i.pairI).1 ∧
        (t.chan g).meas.ovrV = rawOver i.rawV ∧ (t.chan g).meas.ovrI = rawOver i.rawI) ∧
  ∀ (s : State) (g : ChanNo),
    (∀ w, pageUp s (.channel g) = true → (s.chan g).meas.prec.closed = some w → s.tick = w.tick + 2 →
      ∃ t, exec (.precisionBoundary g) s = .next t ∧ ChanWide g s t ∧ (t.chan g).meas.pvalid = true ∧
        (t.chan g).meas.pv = BitVec.ofNat 32 (w.last.toNat / 4) ++ precWord false w.n w.v0 w.v1 ∧
        (t.chan g).meas.pi = BitVec.ofNat 32 (w.last.toNat / 4) ++ precWord true w.n w.i0 w.i1 ∧
        (t.chan g).meas.prec.closed = none ∧
        (w.item = none → (t.chan g).res = (s.chan g).res) ∧
        (w.item ≠ none →
          (t.chan g).res.seq = (if (s.chan g).res.fresh then 0 else (s.chan g).res.seq + 1) ∧
          (t.chan g).res.fresh = false)) ∧
    ∀ via, viaOpen via s (.channel g) = true → resMode s g = 2 →
      ((s.chan g).res.capture = none →
        ∃ t, exec (.resultCapture g via) s = .next t ∧ ChanFrame g s t ∧
          (t.chan g).res = { (s.chan g).res with capture := some s.tick }) ∧
      ((s.chan g).res.capture ≠ none →
        ∃ t, exec (.resultCapture g via) s = .next t ∧ ChanFrame g s t ∧ evtOn t (.channel g) evCapMerged ∧
          (t.chan g).res = { (s.chan g).res with merged := (s.chan g).res.merged + 1 })

/-- A window's raw state follows its input, with STEST 1 that of the other lane; leaving inside in an enabled
direction while not blanked sets the latch, and CLOSE turns the switch off asynchronously; with LATCH 0 a return to
inside clears the latch (R195, R197, R201, R204, R207). Model's choices that it rests on: log entries 59, 134. -/
def Obligations.WindowCrossings : Prop :=
  ∀ (s : State) (g : ChanNo) (lane : Win) (level : Int), bayUp s (bayOf g) = true → sampled s g = false →
    let w := if stest s g = 1 then (match lane with | .v => Win.i | .i => Win.v) else lane
    ∃ t, exec (.windowCrossing g lane level) s = .next t ∧ ChanFrame g s t ∧ (t.win g w).raw = rawAt s g w level ∧
      ((s.win g w).raw = .inside → rawAt s g w level = .above → winEnHi s g w = true → (s.win g w).latch = .inside →
        blanked s g w = false →
        (t.win g w).latch = .above ∧ (t.win g w).count = (s.win g w).count + 1 ∧
        (t.win g w).setAt = (s.win g w).setAt ++ [(s.tick, stest s g != 0)] ∧
        (stest s g = 0 → winClose s g w = true → (s.chan g).force.switch = .on →
          (t.chan g).force.switch = .tripped s.tick (winCause w))) ∧
      ((s.win g w).raw = .inside → rawAt s g w level = .above → winEnHi s g w = false →
        (t.win g w).latch = (s.win g w).latch) ∧
      ((s.win g w).raw ≠ .inside → rawAt s g w level = .inside →
        (t.win g w).latch = if winLatch s g w then (s.win g w).latch else .inside)

/-- The resynchronised copy of a setting, at the first or second tick after it, records the trip time and the trip
event, and registers the closing with the window's cause; that of a setting under STEST reaches neither shutter nor
fabric; in sampled operation both windows decide at tick 16 of a period (R82, R198, R205, R207, R208). A clear clears
the latch while the raw state is inside, sets CLR_REFUSED while it is outside and leaves a latch that has set in its
tick; the end of blanking sets the latch of an input that lies outside (R199, R200, R203). Model's choices that it
rests on: log entries 26, 59, 134, 136. -/
def Obligations.TripsAndLatches : Prop :=
  (∀ (s : State) (g : ChanNo) (w : Win),
    (∀ r test, pageUp s (.channel g) = true → (s.win g w).setAt = [(r, test)] → r < s.tick → s.tick ≤ r + 2 →
      ∃ t, exec (.tripTimeRecord g w) s = .next t ∧ ChanFrame g s t ∧ (t.win g w).time = s.time ∧
        (t.win g w).setAt = [] ∧ evtOn t (.channel g) (winEvt w) ∧
        (test = true → t.transom = s.transom ∧ (t.chan g).force = (s.chan g).force) ∧
        (test = false → domUp s 3 = true →
          ∃ x ∈ t.transom.raised, x.sid = chanSid g (winSid w) ∧ x.tick = s.tick ∧ x.enterAt = s.tick) ∧
        ∀ a c, test = false → (s.chan g).force.switch = .tripped a c →
          (t.chan g).force.switch = .tripClosing a ∧ (t.chan g).force.closeCause = BitVec.ofNat 4 c) ∧
    ∀ lv li, bayUp s (bayOf g) = true → sampled s g = true → s.locked = true → s.time.toNat % sper s g = 16 →
      ∃ t, exec (.sampledDecision g lv li) s = .next t ∧ ChanFrame g s t ∧
        (t.chan g).winV.raw = rawAt s g .v (if stest s g = 1 then li else lv) ∧
        (t.chan g).winI.raw = rawAt s g .i (if stest s g = 1 then lv else li)) ∧
  ∀ (s : State) (g : ChanNo) (w : Win),
    (hostOpen s (.channel g) = true → winLatch s g w = true → (s.win g w).latch ≠ .inside →
      ((s.win g w).setAt.getLast?.map Prod.fst = some s.tick →
        ∃ t, exec (.cmpClear g (w == .v) (w == .i)) s = .next t ∧ ReportsOnly s t ∧ t.win g w = s.win g w) ∧
      ((s.win g w).setAt.getLast?.map Prod.fst ≠ some s.tick → (s.win g w).raw = .inside →
        ∃ t, exec (.cmpClear g (w == .v) (w == .i)) s = .next t ∧ ChanFrame g s t ∧ (t.win g w).latch = .inside ∧
          (t.win g w).count = (s.win g w).count) ∧
      ((s.win g w).setAt.getLast?.map Prod.fst ≠ some s.tick → (s.win g w).raw ≠ .inside →
        (s.win g w).leftAt ≠ some s.tick →
        ∃ t, exec (.cmpClear g (w == .v) (w == .i)) s = .next t ∧ ReportsOnly s t ∧
          evtOn t (.channel g) evClrRefused)) ∧
    ((s.win g w).blankPend = true → (s.win g w).blankUntil = s.tick → blanked s g w = false →
    (s.win g w).latch = .inside →
      (winOut s g w = true →
        ∃ t, exec (.blankingEnd g w) s = .next t ∧ ChanFrame g s t ∧ (t.win g w).latch = (s.win g w).raw ∧
          (t.win g w).count = (s.win g w).count + 1 ∧ (t.win g w).blankPend = false) ∧
      (winOut s g w = false →
        ∃ t, exec (.blankingEnd g w) s = .next t ∧ ChanFrame g s t ∧ (t.win g w).latch = .inside ∧
          (t.win g w).blankPend = false))

/-! ## Lintel and the Catalogue (chapters 8 and 9) -/

/-- A Lintel period boundary takes the rail readings of the window; an evaluation that has not completed is discarded
and counted, and a new one begins, but for the first boundary after PD3 came up: each bay's total is the sum of its
channels' power readings, and the device's total the sum over the bays (R211 to R213, R220, R223). An evaluation that
completes ahead of the next boundary sets the AT_FLOOR event and flag of a bay at the floor, and its limits and the
bay's status take effect at a frame boundary at least one tick later (R216, R219, R220). Model's choices that it rests
on: log entries 60, 62. -/
def Obligations.LintelEvaluations : Prop :=
  (∀ (s : State) (rails : Vector (BitVec 16 × BitVec 16) 16), pageUp s .lintel = true → onMult s 1280 = true →
    s.lintel.evalAt ≠ some s.tick →
    ∃ t, exec (.lintelPeriod rails) s = .next t ∧ t.lintel.doneAt = none ∧
      (s.lintel.evalAt ≠ none → lintelReady s = false →
        t.lintel.late = s.lintel.late + 1 ∧ evtOn t .lintel 3) ∧
      (s.lintel.skip ≠ 0 → t.lintel.evalAt = none ∧
        t.lintel.skip = (if s.tick ≤ s.lintel.upAt then s.lintel.skip else s.lintel.skip - 1)) ∧
      (s.lintel.skip = 0 → t.lintel.evalAt = some s.tick ∧
        (∀ b : BayNo, bayUp s b = true → (s.lintel.bays[b]).skip = 0 →
          (t.lintel.bays[b]).total = ((bayChans b).map fun g => (t.chan g).power).sum) ∧
        (∀ b : BayNo, bayUp s b = false →
          (t.lintel.bays[b]).total = 0 ∧ ∀ g, bayOf g = b → (t.chan g).power = 0) ∧
        t.lintel.total = ((allFin 16).map fun b => (t.lintel.bays[b]).total).sum) ∧
      ∀ b : BayNo, (t.lintel.bays[b]).vfp =
        (if s.power.rails.getLsbD b.val then rails[b].1 else (s.lintel.bays[b]).vfp)) ∧
  ∀ (s : State), pageUp s .lintel = true →
    (∀ r, s.lintel.evalAt = some r → r < s.tick → onMult s 1280 = false → s.lintel.doneAt = none →
      ∃ t, exec .lintelEvalDone s = .next t ∧ t.lintel.doneAt = some s.tick ∧ t.chans = s.chans ∧ t.bays = s.bays ∧
        ∀ (b : BayNo) cls, (s.lintel.bays[b]).result = some (cls, true) →
          (t.lintel.bays[b]).floorFlag = true ∧ evtOn t .lintel 1) ∧
    ∀ r, onFrame s = true → s.lintel.doneAt = some r → r < s.tick →
      ∃ t, exec .lintelLimitsApply s = .next t ∧ t.lintel.evalAt = none ∧ t.lintel.doneAt = none ∧
        (∀ (b : BayNo) cls fl, bayUp s b = true → (s.lintel.bays[b]).result = some (cls, fl) →
          (t.lintel.bays[b]).cls = cls ∧ (t.lintel.bays[b]).atFloor = fl) ∧
        ∀ g lim, bayUp s (bayOf g) = true →
          (s.chan g).lintelNew = some lim → (t.chan g).lintel = lim ∧ (t.chan g).lintelNew = none

/-- The evaluation of a bay gives limits to channels that are not boosted only: above its share no limit rises, and at
or below it no limit falls (R218). Model's choices that it rests on: log entry 62. -/
def Obligations.LintelReducesAboveTheShare : Prop :=
  ∀ (s : State) (b : BayNo) (wins : List (ChanNo × LinWin)) (g : ChanNo) (lim : Nat),
    (g, lim) ∈ (linEvaluate s b wins).1 →
    (s.chan g).force.boostLive = false ∧
    (1000 * linEff s b < (wins.map fun x => x.2.d).sum → lim ≤ (s.chan g).lintel.toNat) ∧
    ((wins.map fun x => x.2.d).sum ≤ 1000 * linEff s b → (s.chan g).lintel.toNat ≤ lim ∧ lim ≤ 0xFFFF)

/-- A Catalogue slot ends S + 128 ticks after it began: its corrected result enters the queue, and a full queue loses
its oldest word, which is detected with code 0x10 (R17). A running sequence begins its next entry at the entry
boundary (R225, R226, R229). The core posts the oldest result of the queue, or counts it late when a newer one of its
converter follows; an injection is requested; the cross-check fault is reset (R230, R235, R236). Model's choices that
it rests on: log entry 63. -/
def Obligations.CatalogueSequences : Prop :=
  (∀ (s : State) (b : BayNo) (k : Conv) (raw : BitVec 16), pageUp s (.catalogue b) = true →
    (∀ sl, (s.catConv b k).slot = some sl → s.tick = sl.start + (32 * 2 ^ field sl.cfg 8 3 + 128) →
      ∃ t, exec (.catSlotEnd b k raw) s = .next t ∧ BayFrame b s t ∧
        ((s.bay b).cat.queue.length < queuePairs →
          (t.bay b).cat.queue = (s.bay b).cat.queue ++ [catResult k sl raw]) ∧
        (queuePairs ≤ (s.bay b).cat.queue.length →
          (t.bay b).cat.queue = (s.bay b).cat.queue.drop 1 ++ [catResult k sl raw] ∧
          ∃ e, (s.tick, e) ∈ t.mgmt.detected ∧ e.code = 0x10 ∧ e.unit = 4 ∧ e.cls = 1) ∧
        (sl.inj = true → evtOn t (.catalogue b) (injEvt k))) ∧
    ((s.catConv b k).slot = none → onMult s 32 = true → (s.catConv b k).retryReq = none →
      (s.catConv b k).injReq = none → (s.catConv b k).startReq = none →
      (k = .b → (s.bay b).cat.held = false ∧ (s.bay b).cat.holdReq = none) → catLen s b k ≠ 0 →
      ∃ t sl, exec (.catSlotEnd b k raw) s = .next t ∧ BayFrame b s t ∧ (t.catConv b k).slot = some sl ∧
        sl.entry = (seqNext (s.catConv b k) (catLen s b k)).1 ∧ sl.start = s.tick ∧
        sl.cfg = entCfg s b k sl.entry ∧ sl.inj = false ∧ sl.retry = false)) ∧
  ∀ (s : State) (b : BayNo),
    (∀ r rest, pageUp s (.catalogue b) = true → (s.bay b).cat.queue = r :: rest →
      ∃ t, exec (.catResultPost b) s = .next t ∧ BayFrame b s t ∧ (t.bay b).cat.queue = rest ∧
        ((∀ x ∈ rest, x.conv ≠ r.conv) →
          (r.inj = false → (t.catConv b r.conv).results[r.entry] = some r) ∧
          (r.inj = true → (t.catConv b r.conv).injResult = some r)) ∧
        ((∃ x ∈ rest, x.conv = r.conv) →
          (t.catConv b r.conv).late = (s.catConv b r.conv).late + 1 ∧ evtOn t (.catalogue b) 5)) ∧
    (∀ k via, viaOpen via s (.catalogue b) = true →
      ((s.catConv b k).injReq = none →
        ∃ t, exec (.inject b k via) s = .next t ∧ BayFrame b s t ∧ (t.catConv b k).injReq = some s.tick) ∧
      ((s.catConv b k).injReq ≠ none →
        ∃ t, exec (.inject b k via) s = .next t ∧ ReportsOnly s t ∧ evtOn t (.catalogue b) 4)) ∧
    (hostOpen s (.catalogue b) = true →
      ∃ t, exec (.xchkReset b) s = .next t ∧ BayFrame b s t ∧
        (t.bay b).cat = { (s.bay b).cat with xfault := false })

/-! ## Accession (chapter 10) -/

/-- A run begins with the selected channels of each bay, or is refused when none is selected or PD3 is off; while
another operation runs it waits; during a core reset an activation of the task input is discarded and counted (R244,
R245, R256, R431). A bay's batch: the first reading within ±0.5 % of the nominal lets up to BATCH channels join; a
reading outside fails every selected channel with code 0xC and sets REF_FAULT (R244, R254). Model's choices that it
rests on: log entries 65, 139. -/
def Obligations.CalibrationBegins : Prop :=
  (∀ (s : State) (via : Via), viaOpen via s .accession = true →
    (∀ d, via = .task d → s.mgmt.rst.getLsbD 16 = true → domUp s 3 = true →
      ∃ t, exec (.calibrate via) s = .next t ∧ t.acc = s.acc ∧ t.transom.pdDrop = s.transom.pdDrop + 1 ∧
        evtOn t .transom 4) ∧
    (((∃ d, via = .task d) → s.mgmt.rst.getLsbD 16 = false) →
      (s.acc.op = .idle → domUp s 3 = true → accAny s = true →
        ∃ t, exec (.calibrate via) s = .next t ∧ t.acc.op = .run ∧ t.acc.done = 0 ∧ t.acc.failedCnt = 0 ∧
          t.chans = s.chans ∧
          ∀ b : BayNo, (t.acc.bays[b]).todo = accSelected s b ∧ (t.acc.bays[b]).batch = [] ∧
            ((t.acc.bays[b]).active = true ↔ accSelected s b ≠ [])) ∧
      (s.acc.op = .idle → (domUp s 3 = false ∨ accAny s = false) →
        ∃ t, exec (.calibrate via) s = .next t ∧ ReportsOnly s t ∧ evtOn t .accession 7) ∧
      (s.acc.op ≠ .idle →
        ∃ t, exec (.calibrate via) s = .next t ∧ t = { s with acc := { s.acc with runPend := true } }))) ∧
  ∀ (s : State) (b : BayNo) (reading : Int), domUp s 0 = true → s.acc.op = .run → (s.acc.bays[b]).active = true →
    (s.acc.bays[b]).batch = [] → bayUp s b = true → (s.bay b).cat.held = true → (s.acc.bays[b]).refChecked = false →
    (refOk (accNominal s) reading = true → accOpenSkip s = false → 1 ≤ accBatch s → (s.acc.bays[b]).todo ≠ [] →
      ∃ t, exec (.batchBegin b reading) s = .next t ∧
        (t.acc.bays[b]).batch = (s.acc.bays[b]).todo.take (accBatch s) ∧
        (t.acc.bays[b]).todo = (s.acc.bays[b]).todo.drop (accBatch s) ∧ (t.acc.bays[b]).refChecked = true ∧
        ∀ c ∈ (s.acc.bays[b]).todo.take (accBatch s),
          ∃ h, (t.chan (chanOf b c)).hold = some h ∧ h.heldAt = none ∧ h.batchAt = s.tick) ∧
    (refOk (accNominal s) reading = false →
      ∃ t, exec (.batchBegin b reading) s = .next t ∧ evtOn t .accession 6 ∧ t.chans = s.chans ∧
        ∀ c ∈ (s.acc.bays[b]).todo, (t.acc.chans[chanOf b c]).code = 0xC)

/-- The hold of a channel: at frame boundary F it begins and closes the shutter with cause 0x6; a plausible step ends
and gives its pair, and one with implausible quantities is repeated; 32 ticks after R the hold ends (R247, R251,
R252). The release of a channel whose steps all ended without a failure: its new coefficients, count, time and code 0
enter the store and apply at once (R249, R250, R253). Model's choices that it rests on: log entries 56, 65, 66. -/
def Obligations.CalibrationHoldsAndPasses : Prop :=
  (∀ (s : State) (g : ChanNo) (h : CalHold), bayUp s (bayOf g) = true → (s.chan g).hold = some h →
    (h.heldAt = none → onFrame s = true → h.batchAt < s.tick →
      ∃ t, exec (.calHoldStart g) s = .next t ∧ ChanFrame g s t ∧
        (t.chan g).hold = some { h with heldAt := some s.tick } ∧
        ((s.chan g).force.switch = .on →
          (t.chan g).force.switch = .closing s.tick ∧ (t.chan g).force.closeCause = 6)) ∧
    (∀ r x, h.heldAt = some r → h.releasedAt = none → h.aborted = false → r + 16 ≤ s.tick →
      stepKey x ∈ stepKeys (inBay g) → stepKey x ∉ h.ended → (∀ y ∈ h.repeats, y.step ≠ stepKey x) →
      ((∀ q ∈ stepQtys x, q.2.1 = false) →
        ∃ t, exec (.calStepDone g x) s = .next t ∧ ChanFrame g s t ∧
          (t.chan g).hold = some { h with ended := stepKey x :: h.ended, new := stepTake x h.new }) ∧
      ((∃ q ∈ stepQtys x, q.2.1 = true) →
        ∃ t h', exec (.calStepDone g x) s = .next t ∧ ChanFrame g s t ∧ (t.chan g).hold = some h' ∧
          h'.ended = h.ended ∧ h'.new = h.new ∧
          ∀ q i, (stepQtys x)[i]? = some q → q.2.1 = true →
            { step := stepKey x, place := i, code := q.1, count := 0, spent := false } ∈ h'.repeats)) ∧
    (∀ r, h.releasedAt = some r → s.tick = r + 32 →
      ∃ t, exec (.calHoldEnd g) s = .next t ∧ ChanFrame g s t ∧ (t.chan g).hold = none)) ∧
  ∀ (s : State) (g : ChanNo) (h : CalHold) (r : Nat), bayUp s (bayOf g) = true → (s.chan g).hold = some h →
    h.heldAt = some r → h.releasedAt = none → r ≠ s.tick → onFrame s = true → h.aborted = false →
    (s.acc.bays[bayOf g]).railFault = none → stepsEnded g h = true → h.failed = none → s.acc.runPend = false →
    ∃ t, exec (.calRelease g) s = .next t ∧ (t.acc.chans[g]).code = 0 ∧
      (t.acc.chans[g]).coefs = { h.new with loaded := true } ∧ (t.chan g).coefs = { h.new with loaded := true } ∧
      (t.acc.chans[g]).count = satInc (s.acc.chans[g]).count ∧ (t.acc.chans[g]).time = s.time ∧
      t.acc.done = s.acc.done + 1 ∧ (t.chan g).hold = some { h with releasedAt := some s.tick } ∧
      ∀ k, k ≠ g → (t.acc.chans[k]).coefs = (s.acc.chans[k]).coefs

/-- Store and load requests start their operation in a free flash, or wait for the running one (R256, R264, R270).
ABORT ends a run by releasing its held channels, ends a store with LAST 3, and does nothing else (R257). Model's
choices that it rests on: log entry 67. -/
def Obligations.JournalRequestsAndAbort : Prop :=
  (∀ (s : State), hostOpen s .accession = true →
    (s.acc.op = .idle → s.flash.use = .free →
      (jnlAvailable s.flash = true → s.acc.inUse = none →
        ∃ t, exec .store s = .next t ∧ t.acc.op = .store ∧ t.flash.use = .journal ∧ t.acc.storeTime = s.time ∧
          t.flash.bytes = s.flash.bytes) ∧
      (jnlAvailable s.flash = false →
        ∃ t, exec .store s = .next t ∧ t.acc.op = .idle ∧ t.acc.last = 5 ∧ evtOn t .accession 3 ∧
          t.flash = s.flash) ∧
      ∃ t, exec .load s = .next t ∧ t.acc.op = .load ∧ t.flash.use = .journal ∧ t.acc.chans = s.acc.chans) ∧
    (s.acc.op ≠ .idle →
      (∃ t, exec .store s = .next t ∧ t = { s with acc := { s.acc with storePend := true } }) ∧
      ∃ t, exec .load s = .next t ∧ t = { s with acc := { s.acc with loadPend := true } })) ∧
  ∀ (s : State), hostOpen s .accession = true →
    (s.acc.op = .run →
      ∃ t, exec .abort s = .next t ∧ t.acc.storePend = false ∧ t.acc.loadPend = false ∧
        ∀ g h, (s.chan g).hold = some h →
          (h.heldAt = none → (t.chan g).hold = none) ∧
          (h.heldAt ≠ none → h.releasedAt = none → (t.chan g).hold = some { h with aborted := true })) ∧
    (s.acc.op = .store → s.acc.runPend = false → s.acc.storePend = false → s.acc.loadPend = false →
      s.acc.bootPend = false →
      ∃ t, exec .abort s = .next t ∧ t.acc.op = .idle ∧ t.acc.last = 3 ∧ t.acc.inUse = s.acc.inUse) ∧
    (s.acc.op = .idle ∨ s.acc.op = .load → exec .abort s = .next s)

/-- A store that reads back makes its target the slot in use with a valid CRC and commit word, and a load of the
journal then selects a valid slot (R262 to R266). Model's choices that it rests on: log entry 68. -/
def Obligations.StoredSlotIsValid : Prop :=
  ∀ (s : State), CanonicalStores s → domUp s 0 = true → s.acc.op = .store → s.flash.use = .journal →
  storeFits s = true →
    jnlAvailable s.flash = true → s.acc.seq.toNat < 0xFFFFFFFD →
    ∃ t, exec (.storeComplete true) s = .next t ∧ t.acc.inUse = some (storeTarget s) ∧ t.acc.last = 1 ∧
      t.acc.seq.toNat = storeSeq s ∧ evtOn t .accession 2 ∧
      slotState t.flash (jnlSlot s.acc.base (storeTarget s)) = 0 ∧ slotPick t.flash s.acc.base ≠ none

/-- The journal at power-up and on command: the selected slot fills the store, and the pairs wait for the channels'
next frame boundary; with no valid slot a commanded load is refused and keeps the store (R266 to R270). Model's
choices that it rests on: log entries 56, 69, 138. -/
def Obligations.JournalLoads : Prop :=
  ∀ (s : State), domUp s 0 = true → s.acc.op = .load → s.flash.use = .journal →
    (s.acc.bootLoad = true → s.acc.picked = false →
      ∃ t, exec .journalLoad s = .next t ∧ t.acc.picked = true ∧
      t.acc.inUse = (slotPick s.flash 0x100000).or s.acc.inUse ∧
        t.flash = s.flash ∧
        ∀ i, slotPick s.flash 0x100000 = some i → ∀ g : ChanNo,
          (t.acc.chans[g]).coefs = recordCoefs s.flash (jnlSlot 0x100000 i + 0x40 + 192 * g.val)) ∧
    (s.acc.bootLoad = true → s.acc.picked = true →
      ∃ t, exec .loadDone s = .next t ∧ evtOn t .accession 4 ∧ t.acc.inUse = s.acc.inUse ∧
        ∀ g : ChanNo, (t.acc.chans[g]).coefs = (s.acc.chans[g]).coefs ∧
          (bayUp s (bayOf g) = true → (t.chan g).coefLoad = some s.tick)) ∧
    (s.acc.bootLoad = false →
      (∀ i, slotPick s.flash s.acc.base = some i →
        ∃ t, exec .loadDone s = .next t ∧ t.acc.inUse = some i ∧ evtOn t .accession 4 ∧
          ∀ g : ChanNo, (t.acc.chans[g]).coefs = recordCoefs s.flash (jnlSlot s.acc.base i + 0x40 + 192 * g.val) ∧
            (bayUp s (bayOf g) = true → (t.chan g).coefLoad = some s.tick)) ∧
      (slotPick s.flash s.acc.base = none →
        ∃ t, exec .loadDone s = .next t ∧ evtOn t .accession 7 ∧ t.acc.inUse = s.acc.inUse ∧
          ∀ g : ChanNo, (t.acc.chans[g]).coefs = (s.acc.chans[g]).coefs))

/-! ## Transom and the Shelf queues (chapters 11 and 12) -/

/-- A source whose entry is due reaches every enabled line that names it; a direct line passes it on with depth 0 to
hop one tick later (R275, R278, R279). A hop: the event of a line reaches its destinations and is counted; a line
whose one destination is the stop input of a timer stops that timer (R274, R279); one that names the commit of a line
page goes first, and is left out here. A delayed event is delivered at its tick; lines fired by one write enter
together at the first or second tick after it (R275, R281). Model's choices that it rests on: log entries 26, 71, 73.
-/
def Obligations.TransomLines : Prop :=
  (∀ (s : State) (r : RaisedSrc) (n : Fin 256), domUp s 3 = true → r ∈ s.transom.raised → r.depth = none →
    r.enterAt = s.tick → lineEn s n = true → lineSrc s n = r.sid → lineMode s n = 0 →
    (s.line n).lastIn.map Prod.fst ≠ some s.tick →
    ∃ t, exec .transomEntry s = .next t ∧ r ∉ t.transom.raised ∧
      (⟨n, 0, s.tick + 1⟩ : LineEvt) ∈ t.transom.events ∧ t.chans = s.chans ∧ t.bays = s.bays) ∧
  (∀ (s : State) (e : LineEvt), domUp s 3 = true → pageOpen s .transom = true →
    hopsDue s = [e] → lineEn s e.line = true → lineDests s e.line ≠ [] → e.depth < 16 →
    (∀ d ∈ lineDests s e.line, isLineCommit d = false) →
    ∃ t, exec (.transomHop []) s = .next t ∧ (t.line e.line).events = (s.line e.line).events + 1 ∧
      ∀ k : Fin 16, lineDests s e.line = [BitVec.ofNat 16 (0x4040 + k.val)] →
        (t.timer k).running = false ∧ (t.timer k).stopTick = some s.tick) ∧
  ∀ (s : State) (n : Fin 256),
    (∀ d, domUp s 3 = true → (s.line n).delayed = some (s.tick, d) →
      ∃ t, exec (.delayExpiry n) s = .next t ∧ (t.line n).delayed = none ∧
        t.transom.events = s.transom.events ++ [⟨n, d, s.tick + 1⟩] ∧ t.chans = s.chans ∧ t.pages = s.pages) ∧
    (hostOpen s .transom = true →
      (∃ t a, exec (.trFire n) s = .next t ∧ (a = s.tick + 1 ∨ a = s.tick + 2) ∧
        t = { s with free := s.free + 1, transom := { s.transom with fired := s.transom.fired ++ [(n, a)] } }) ∧
      ∀ k w, ∃ t a, exec (.trFireGrp k w) s = .next t ∧ (a = s.tick + 1 ∨ a = s.tick + 2) ∧
        t = { s with
          free := s.free + 1
          transom := { s.transom with fired := s.transom.fired ++ (groupLines k w).map fun m => (m, a) } })

/-- A timer started takes its settings; each expiry raises its source and starts the next period, and the last one
stops the timer with TIMER_DONE (R285). Model's choices that it rests on: log entry 75. -/
def Obligations.Timers : Prop :=
  ∀ (s : State) (k : Fin 16),
    (∀ via, viaOpen via s .transom = true → (s.timer k).stopTick ≠ some s.tick →
      ∃ t, exec (.timerStart k via) s = .next t ∧ (t.timer k).running = true ∧ (t.timer k).expired = 0 ∧
        (t.timer k).nextAt = s.tick + live s .transom (0x100 + 16 * k.val) 0 32 ∧
        (t.timer k).count = live s .transom (0x104 + 16 * k.val) 0 16 ∧ ∀ j, j ≠ k → t.timer j = s.timer j) ∧
    (∀ via, viaOpen via s .transom = true →
      ∃ t, exec (.timerStop k via) s = .next t ∧ (t.timer k).running = false ∧
        (t.timer k).expired = (s.timer k).expired ∧ ∀ j, j ≠ k → t.timer j = s.timer j) ∧
    (domUp s 3 = true → (s.timer k).running = true → (s.timer k).nextAt = s.tick →
      ∃ t, exec (.timerExpiry k) s = .next t ∧ (t.timer k).expired = satInc (s.timer k).expired ∧
        (t.timer k).nextAt = s.tick + (s.timer k).period ∧
        (∃ r ∈ t.transom.raised, r.sid = devSid (0x30 + k.val) ∧ r.tick = s.tick) ∧
        ((s.timer k).count = 0 → (t.timer k).running = true) ∧
        ((s.timer k).count ≠ 0 → (s.timer k).count ≤ (s.timer k).expired.toNat + 1 →
          (t.timer k).running = false ∧ evtOn t .transom 3 ∧
          ∃ r ∈ t.transom.raised, r.sid = devSid (0x40 + k.val) ∧ r.tick = s.tick))

/-- The producer of a Shelf queue writes the next word of a pass at W, at most four in one tick and not before the
second tick after its boundary, and O leaves the position that it overwrites; the reader takes the word at Rd, with
LOSS in the first header after a loss, or repeats the last one from an empty queue with UNDERFLOW counted (R191, R288,
R291, R293, R294, R299). Positions reach the other side late, where the reader skips what was overwritten; the timeout
fires after 160 × T ticks; a flush between items sets O to W, and empties the queue once the reader sees it (R289,
R292, R296 to R298). Model's choices that it rests on: log entries 76, 77. -/
def Obligations.ShelfQueue : Prop :=
  (∀ (s : State) (b : BayNo),
    (∀ bound c w e rest, pageUp s (.shelf b) = true →
      passLeft s.tick (s.bay b).shelf = (bound, c, w, e) :: rest → bound + 2 ≤ s.tick →
      burstNow s (s.bay b).shelf < 4 →
      ∃ t, exec (.shelfWrite b) s = .next t ∧ BayFrame b s t ∧ (t.bay b).shelf.w = (s.bay b).shelf.w + 1 ∧
        slotGet (t.bay b).shelf (s.bay b).shelf.w = some ((s.bay b).shelf.w, w) ∧
        (t.bay b).shelf.passWords = rest ∧ (t.bay b).shelf.written = (s.bay b).shelf.written + 1 ∧
        (t.bay b).shelf.o =
          (if posDiff (s.bay b).shelf.w (s.bay b).shelf.o = 2048 then (s.bay b).shelf.o + 1 else (s.bay b).shelf.o)) ∧
    (hostOpen s (.shelf b) = true →
      (readerFill (s.bay b).shelf = 0 →
        ∃ t, exec (.shfDataRead b 1) s = .next t ∧ t.out.read = [(s.bay b).shelf.last] ∧
          (t.bay b).shelf = { (s.bay b).shelf with under := (s.bay b).shelf.under + 1 } ∧ evtOn t (.shelf b) 3) ∧
      (∀ w, readerFill (s.bay b).shelf ≠ 0 →
        slotGet (s.bay b).shelf (s.bay b).shelf.rd = some ((s.bay b).shelf.rd, w) →
        ∃ t, exec (.shfDataRead b 1) s = .next t ∧ (t.bay b).shelf.rd = (s.bay b).shelf.rd + 1 ∧
          t.out.read = [if (s.bay b).shelf.lossPend && w.getLsbD 31 then w ||| bit1 17 else w] ∧
          t.out.read = [(t.bay b).shelf.last] ∧ ∀ c, c ≠ b → t.bay c = s.bay c) ∧
      ∀ n, 1 ≤ n → n ≤ 512 → ∃ t, exec (.shfDataRead b n) s = .next t ∧ t.out.read.length = n)) ∧
  ∀ (s : State) (b : BayNo),
    (pageUp s (.shelf b) = true →
      ((s.bay b).shelf.flushTo = none →
        (posDiff (s.bay b).shelf.o (s.bay b).shelf.rd = 0 →
          ∃ t, exec (.positionVisible b .core) s = .next t ∧ BayFrame b s t ∧
            (t.bay b).shelf.wSeen = (s.bay b).shelf.w ∧ (t.bay b).shelf.oSeen = (s.bay b).shelf.o ∧
            (t.bay b).shelf.rd = (s.bay b).shelf.rd) ∧
        (0 < posDiff (s.bay b).shelf.o (s.bay b).shelf.rd → posDiff (s.bay b).shelf.o (s.bay b).shelf.rd < 2048 →
          ∃ t, exec (.positionVisible b .core) s = .next t ∧ BayFrame b s t ∧
            (t.bay b).shelf.rd = (s.bay b).shelf.o ∧ evtOn t (.shelf b) 4 ∧
            (t.bay b).shelf.lost =
              (s.bay b).shelf.lost + BitVec.ofNat 32 (posDiff (s.bay b).shelf.o (s.bay b).shelf.rd))) ∧
      (∀ o, (s.bay b).shelf.flushTo = some ((s.bay b).shelf.o, o) →
        ∃ t, exec (.positionVisible b .core) s = .next t ∧ BayFrame b s t ∧ evtOn t (.shelf b) 2 ∧
          (t.bay b).shelf.rd = (s.bay b).shelf.o ∧ (t.bay b).shelf.last = 0 ∧ (t.bay b).shelf.flushTo = none ∧
          (t.bay b).shelf.flushed =
            BitVec.ofNat 12
              (min (posDiff (s.bay b).shelf.o o) (posDiff (s.bay b).shelf.o (s.bay b).shelf.rd))) ∧
      (∀ a rd by_, (s.bay b).shelf.rdTrail = [(a, rd, by_)] → a + 2 ≤ s.tick →
        ∃ t, exec (.positionVisible b .timebase) s = .next t ∧ BayFrame b s t ∧ (t.bay b).shelf.rdSeen = rd ∧
          (t.bay b).shelf.rdTrail = [])) ∧
    (∀ r, pageUp s (.shelf b) = true → (producerView s.tick (s.bay b).shelf).tmoFrom = some r → shfTmo s b ≠ 0 →
      s.tick = r + shfTmo s b →
      ∃ t, exec (.shelfTimeout b) s = .next t ∧ BayFrame b s t ∧ evtOn t (.shelf b) 1 ∧
        (t.bay b).shelf = { producerView s.tick (s.bay b).shelf with tmoFrom := none }) ∧
    (hostOpen s (.shelf b) = true →
      ∃ t, exec (.flush b) s = .next t ∧ BayFrame b s t ∧
        (t.bay b).shelf = { (s.bay b).shelf with flushing := true }) ∧
    (pageUp s (.shelf b) = true → (s.bay b).shelf.flushing = true → itemOpen s.tick (s.bay b).shelf = false →
      ∃ t, exec (.flushPoint b) s = .next t ∧ BayFrame b s t ∧ (t.bay b).shelf.o = (s.bay b).shelf.w ∧
        (t.bay b).shelf.w = (s.bay b).shelf.w ∧ (t.bay b).shelf.rd = (s.bay b).shelf.rd ∧
        (t.bay b).shelf.flushing = false ∧ (t.bay b).shelf.tmoFrom = none ∧
        (t.bay b).shelf.flushTo = some ((s.bay b).shelf.w, (s.bay b).shelf.o))

/-! ## The Archive (chapter 13) -/

/-- An arm fixes S0, the depth and the effective PRE and POST, and the folio fills or is ready; a stop ends a
recording with cause 1 and its last sample (R315, R321, R322, R333). Model's choices that it rests on: log entry 81.
-/
def Obligations.ArmAndStop : Prop :=
  ∀ (s : State) (f : Fin 64) (via : Via), viaOpen via s (folioPage f) = true →
    (armAllowed (s.folio f) = true → (s.folio f).stopTick ≠ some s.tick →
      ∃ t, exec (.arm f via) s = .next t ∧ (t.folio f).s0 = (s.time.toNat + 4) / 4 ∧
        (t.folio f).arms = (s.folio f).arms + 1 ∧ (t.folio f).trigPoint = none ∧
        (t.folio f).preEff = min (folioPre s f) (t.folio f).depth ∧
        (t.folio f).preEff + (t.folio f).postEff ≤ (t.folio f).depth ∧
        (t.folio f).state = (if (t.folio f).preEff = 0 then 3 else 2) ∧
        (t.folio f).dueAt = 4 * ((t.folio f).s0 + (t.folio f).preEff) ∧
        (t.folio f).streams.length = (folioStreams s f).length ∧ ∀ h, h ≠ f → t.folio h = s.folio h) ∧
    (recording (s.folio f) = true → (s.folio f).last = none → (s.folio f).armTick ≠ some s.tick →
      ∃ t, exec (.folioStop f via) s = .next t ∧ (t.folio f).state = 6 ∧ (t.folio f).endCause = 1 ∧
        (t.folio f).last = some (lastSampleBefore s) ∧ (t.folio f).flushPend = true ∧
        (∀ h, h ≠ f → t.folio h = { s.folio h with endPend := (t.folio h).endPend }) ∧
        (∀ p, (t.page p).live = (s.page p).live) ∧ t.stk.mem = s.stk.mem)

/-- Triggers: a write of TRIG, or the trigger task, presents its condition for judging; a filling folio becomes ready
at S0 + PRE_EFF; a judged condition on a ready folio triggers it with the lowest-numbered source, and its recording
will end POST_EFF samples from the trigger sample on (R321, R329, R331, R332). A recording completes when its last
sample is recorded, or ends early on a cause of the core; when its lines and header are in DRAM it is flushed (R320,
R324, R327). Model's choices that it rests on: log entries 4, 80. -/
def Obligations.FoliosJudgeAndEnd : Prop :=
  (∀ (s : State) (f : Fin 64),
    (∀ via, viaOpen via s (folioPage f) = true → folioTrigEn s f (trigSource via) = true →
      ∃ t, exec (.trig f via) s = .next t ∧ FolioFrame f s t ∧
        t.folio f = { s.folio f with
          conds :=
            (s.folio f).conds.filter (fun c => decide (s.time.toNat ≤ 4 * (c.2 / 64) + 12 + judgeLag s f)) ++
              [(trigSource via, 16 * s.time.toNat)] }) ∧
    (pageUp s .archive = true → (s.folio f).state = 2 → s.time.toNat = (s.folio f).dueAt →
      ∃ t, exec (.folioReady f) s = .next t ∧ FolioFrame f s t ∧ t.folio f = { s.folio f with state := 3 }) ∧
    ∀ n c, pageUp s .archive = true → s.time.toNat = 4 * n + 12 + judgeLag s f → (s.folio f).state = 3 →
      lowestCond ((s.folio f).conds.filter fun c => c.2 / 64 == n) = some c →
      (s.folio f).s0 + (s.folio f).preEff ≤ n →
      ∃ t, exec (.triggerJudge f n) s = .next t ∧ (t.folio f).state = 4 ∧ (t.folio f).trigSample = some n ∧
        (t.folio f).trigPoint = some c.2 ∧ (t.folio f).primary = BitVec.ofNat 4 c.1 ∧
        (t.folio f).last = some (n + (s.folio f).postEff - 1) ∧
        (∀ h, h ≠ f → t.folio h = { s.folio h with endPend := (t.folio h).endPend }) ∧
        evtOn t (folioPage f) (3 * (f.val % 8))) ∧
  ∀ (s : State) (f : Fin 64), pageUp s .archive = true →
    ((s.folio f).state = 4 → s.time.toNat = (s.folio f).dueAt →
      ∃ t, exec (.folioComplete f) s = .next t ∧
        t.folio f = { s.folio f with state := 5, flushPend := true } ∧ t.pages = s.pages ∧
        ∀ h, h ≠ f → t.folio h = s.folio h) ∧
    (∀ c : Fin 6, recording (s.folio f) = true → (s.folio f).endPend = some c → (s.folio f).last = none →
      ∃ t, exec (.folioEndedEarly f c) s = .next t ∧ (t.folio f).state = 6 ∧
        (t.folio f).endCause = BitVec.ofNat 4 c.val ∧ (t.folio f).last = some ((s.folio f).horizon - 1) ∧
        ∀ h, h ≠ f → t.folio h = s.folio h) ∧
    (∀ e, (s.folio f).flushPend = true → memServes s = true → (s.folio f).last = some e →
      (3 ≤ (s.folio f).endCause.toNat ∨ allPacked s f e = true) →
      writesUnderWay (folioFlush f s) (.archive f.val) = false →
      ∃ t, exec (.folioFlushed f) s = .next t ∧ (t.folio f).flushed = true ∧ (t.folio f).flushPend = false ∧
        (t.folio f).state = (s.folio f).state ∧
        evtOn t (folioPage f) (3 * (f.val % 8) + if (s.folio f).endCause = 0 then 1 else 2))

/-- The Archive takes the oldest word of a staging queue; a tag read notes its line, and its end shows the line's tag
with VALID (R325, R497). Model's choices that it rests on: log entries 4, 84, 86. -/
def Obligations.StagingAndTagReads : Prop :=
  ∀ (s : State),
    (∀ g x rest, bayUp s (bayOf g) = true → pageUp s .archive = true →
      (∀ f, (s.folio f).hdrAt = none) → (∀ x ∈ s.stk.waiting, x.1 ≠ 0) →
      ((s.chan g).stgFast = x :: rest →
        ∃ t, exec (.stagingWord g false) s = .next t ∧ t.chan g = { s.chan g with stgFast := rest } ∧
          ∀ h, h ≠ g → t.chan h = s.chan h) ∧
      ((s.chan g).stgPrec = x :: rest →
        ∃ t, exec (.stagingWord g true) s = .next t ∧ t.chan g = { s.chan g with stgPrec := rest } ∧
          ∀ h, h ≠ g → t.chan h = s.chan h)) ∧
    (hostOpen s .archive = true → s.archive.tagBusy = none →
      ∃ t, exec .tagRead s = .next t ∧
        t.archive = { s.archive with tagBusy := some (s.archive.tagAddr.toNat / 64), tagValid := false }) ∧
    ∀ line i, pageUp s .archive = true → memServes s = true → s.archive.tagBusy = some line →
      lineAns s line = .dram i → returnedView s.stk .tagRead line = none →
      (issueNow 5 (readReq .tagRead line) i s).isSome = true →
      ∃ t, exec (.tagDone noErrs) s = .next t ∧ t.archive.tagBusy = none ∧
        t.archive.tagValid = true ∧ t.archive.tagData = lineTag s.stk line ∧ evtOn t .archive 5 ∧
        t.stk.mem = s.stk.mem

/-! ## Stacks and the ledger code (chapter 14) -/

/-- A ledger word that picks up no error decodes as clean, one with a single symbol error decodes as corrected with
its data restored, and the poison mark decodes as poison (R343, R344, R347). The tag code corrects any single bit of
tag or check byte and detects any two (R346). -/
def Obligations.CodesOfMemory : Prop :=
  (∀ (data : List Byte) (p : Nat) (v : Byte), data.length = 32 → p < 36 → v ≠ 0 →
    ledgerArrive data false [] = (.clean, data) ∧ ledgerArrive data false [(p, v)] = (.corrected, data) ∧
    (ledgerArrive data true []).1 = .poison) ∧
  ∀ (t : BitVec 56) (i j : Fin 64), i ≠ j →
    let e (k : Fin 64) : BitVec 56 := if k.val < 56 then (1 : BitVec 56) <<< k.val else 0
    let h (k : Fin 64) : Byte := if k.val < 56 then 0 else (1 : Byte) <<< (k.val - 56)
    tagArrive t 0 0 = (.clean, t) ∧ tagArrive t (e i) (h i) = (.corrected, t) ∧
    (tagArrive t (e i ^^^ e j) (h i ^^^ h j)).1 = .uncorrectable

/-- A request that finds room enters the queue of its subchannel, as a write decoded and stamped; DRAM changes only
when it issues. One without room waits at its port and changes nothing else. An access beyond installed memory or in a
fenced subchannel is counted once, and its read returns poison (R342, R348, R357, R360). Model's choices that it rests
on: log entry 86. -/
def Obligations.RequestsEnterAndWrite : Prop :=
  ∀ (s : State) (p : StkPort) (r : StkReq), wfReq r = true → pageUp s .stk = true → s.stk.sref = false →
    memServes s = true → s.stk.waiting = [] →
    (∀ i, lineAns s r.line = .dram i → hasRoom s i p = true →
      let b (h : Nat) : List (Nat × Byte) × Bool := if r.write then (arriveHalf p r h s).2 else ([], false)
      let x := queued s p r false (b 0) (b 1)
      ∃ t, exec (.requestEnter p r) s = .next t ∧ t.stk.mem = s.stk.mem ∧ x.stamp = s.time.toNat ∧
        ((s.sub i).queue ++ [x]) <+: (t.sub i).queue ∧ (∀ j, j ≠ i → (t.sub j).queue = (s.sub j).queue) ∧
        (r.write = false ∨ wholeLine r.bytes = true →
          (t.sub i).queue = (s.sub i).queue ++ [x] ∧ (t.stk.ports[p]).req = (s.stk.ports[p]).req + 1 ∧
          t.stk.waiting = [])) ∧
    (∀ i, lineAns s r.line = .dram i → hasRoom s i p = false →
      ∃ t, exec (.requestEnter p r) s = .next t ∧ t = { s with stk := { s.stk with waiting := [(p, r, false)] } }) ∧
    (lineAns s r.line = .refused →
      ∃ t, exec (.requestEnter p r) s = .next t ∧ t.stk.oor = s.stk.oor + 1 ∧ evtOn t .stk 9 ∧
        t.stk.mem = s.stk.mem ∧ t.stk.subs = s.stk.subs ∧
        (r.write = false → r.from_ ≠ .scrub → r.from_ ≠ .reRead →
          returnedView t.stk r.from_ r.line = some poisonView))

/-- The scheduler: requests that have reached the age limit are promoted, and a subchannel that can issue sends the
first request of R359 and R362; a write then holds its bytes in DRAM and changes no other block. The oldest issued
read returns what its line held when it issued: a clean one is delivered, and one that decodes as corrected is counted
as transient, with one more request of P5, when its re-read is clean (R344, R349, R351). Model's choices that it rests
on: log entries 86, 89. -/
def Obligations.SchedulerAndReads : Prop :=
  (∀ (s : State) (i : Fin 16), pageUp s .stk = true →
    (∃ t, exec (.promoted i) s = .next t ∧ (t.sub i).queue.length = (s.sub i).queue.length ∧
      (∀ x ∈ (t.sub i).queue, ageLim s ≤ reqAge s x → x.promoted = true) ∧ t.stk.mem = s.stk.mem) ∧
    ∀ busy n x, CanonicalStores s → canIssue s i = true → NothingWaits s → (∀ f, (s.folio f).hdrAt = none) →
      nextReq (promote i s) ((promote i s).sub i) busy = some (n, x) →
      ∃ t, exec (.requestIssue i busy) s = .next t ∧
        (t.sub i).queue = ((promote i s).sub i).queue.eraseIdx n ∧ (t.sub i).dirWrite = x.write ∧
        (t.sub i).reads = (if x.write then (s.sub i).reads else (s.sub i).reads ++ [(x, lineContent s.stk x.line)]) ∧
        (∀ a, x.write = false ∨ a / 64 ≠ x.line ∨ touchesHalf x.bytes (a % 64 / 32) = false →
          memByte t.stk a = memByte s.stk a) ∧
        (x.write = true → ∀ o v, o < 64 → reqByte x.bytes o = some v → memByte t.stk (64 * x.line + o) = v)) ∧
  ∀ (s : State) (i : Fin 16) (e : LineErr) (x : QReq) (d : LineData) (rest : List (QReq × LineData)),
    wfLineErr e = true → pageUp s .stk = true → (s.sub i).state = .ready → (s.sub i).reads = (x, d) :: rest →
    s.host.bar2Wait = [] →
    (worst (judge d e) = .clean →
      ∃ t, exec (.readReturn i e []) s = .next t ∧ (t.sub i).reads = rest ∧ t.pages = s.pages ∧
        t.stk.mem = s.stk.mem ∧
        (x.fetch = false → x.requester ≠ .scrub → x.requester ≠ .reRead →
          returnedView t.stk x.requester x.line = some ((d.bytes.take 64).map some))) ∧
    (worst (judge d e) = .corrected → worst (judge d noErr) = .clean →
      ∃ t, exec (.readReturn i e []) s = .next t ∧ (t.sub i).reads = rest ∧
        (t.sub i).corrT = (s.sub i).corrT + 1 ∧ (t.stk.ports[(5 : StkPort)]).req =
        (s.stk.ports[(5 : StkPort)]).req + 1 ∧
        evtOn t .stk 2 ∧ t.stk.mem = s.stk.mem ∧
        ∃ l, t.mgmt.detected = s.mgmt.detected ++ [(s.tick, l)] ∧ l.code = 0x61 ∧ l.cls = 0 ∧
          l.unit = BitVec.ofNat 16 i.val)

/-- Background work of Stacks: at its ticks the scrubber reads its next line through P4, a write of the restart bit
sends it to the start, READY subchannels are refreshed at each interval, and a temperature above 85 °C sets HOT (R354,
R363). Self-refresh: READY subchannels enter it after the idle time, a request starts the exit, and the exit returns
them to READY (R364, R365). Model's choices that it rests on: log entries 90, 93. -/
def Obligations.StacksBackgroundWork : Prop :=
  (∀ (s : State) (i : Fin 16) (c : Fin 8) (q : BitVec 12), pageUp s .stk = true →
    (memServes s = true → scrubDue s (live s .stk 0x050 0 16) = true → s.stk.scrubTick ≠ some s.tick →
      NothingWaits s → lineAns s (s.stk.scrubPos / 64) = .dram i → hasRoom s i 4 = true →
      ∃ t, exec .scrubRead s = .next t ∧
        (∃ x, (t.sub i).queue = (s.sub i).queue ++ [x] ∧ x.line = s.stk.scrubPos / 64 ∧ x.write = false ∧ x.port = 4) ∧
        t.stk.scrubPos = (if s.stk.cap ≤ s.stk.scrubPos + 64 then 0 else s.stk.scrubPos + 64) ∧
        t.stk.scrubPass = (if s.stk.cap ≤ s.stk.scrubPos + 64 then s.stk.scrubPass + 1 else s.stk.scrubPass) ∧
        t.stk.mem = s.stk.mem ∧ t.stk.idleFrom = s.stk.idleFrom) ∧
    (hostOpen s .stk = true →
      ∃ t, exec .scrubRestart s = .next t ∧ t = { s with stk := { s.stk with scrubPos := 0 } }) ∧
    ((s.sub i).state = .ready → (s.sub i).refreshFrom < s.tick →
      (s.tick - (s.sub i).refreshFrom) % refreshEvery (s.sub i) = 0 →
      ∃ t, exec (.refresh i) s = .next t ∧
        t.sub i = { s.sub i with refreshes := (s.sub i).refreshes + 1, refreshFrom := s.tick } ∧
        ∀ j, j ≠ i → t.sub j = s.sub j) ∧
    (s.stk.channels.contains c = true →
      (∀ j : Fin 16, j.val = 2 * c.val → (s.sub j).tempValid = false ∨ (s.tick - (s.sub j).tempFrom) % 2560000 = 0) →
      ∃ t, exec (.thermalRead c q) s = .next t ∧ (340 < q.toInt → evtOn t .stk 11) ∧
        ∀ j : Fin 16, j.val / 2 = c.val → (t.sub j).temp = q ∧ (t.sub j).tempValid = true)) ∧
  ∀ (s : State), pageUp s .stk = true →
    (s.stk.initDone = true → s.stk.sref = false → s.stk.rateBusy = false → srefEn s = true →
      anyRecording s = false → s.stk.idleFrom + 160 * live s .stk 0x044 0 20 ≤ s.tick →
      ∃ t, exec .srefEnter s = .next t ∧ t.stk.sref = true ∧ t.stk.srefCnt = s.stk.srefCnt + 1 ∧
        t.stk.mem = s.stk.mem ∧
        ∀ i, (t.sub i).state = (if (s.sub i).state = .ready then .sref else (s.sub i).state)) ∧
    (s.stk.sref = true →
      ∃ t, exec .srefExit s = .next t ∧ t = { s with stk := { s.stk with srefExit := true } }) ∧
    ∀ failed, s.stk.sref = true → s.stk.srefExit = true → NothingWaits s →
      ∃ t, exec (.srefExitDone failed) s = .next t ∧ t.stk.sref = false ∧ t.stk.srefExit = false ∧
        t.stk.mem = s.stk.mem ∧
        ∀ i, (s.sub i).state = .sref → (s.sub i).retryAt = [] →
          (t.sub i).state = .ready ∧ (t.sub i).refreshFrom = s.tick

/-- Initialisation: queues are emptied and reads under way return poison, contents are lost and the DIMMs are read; a
subchannel that passes its training is READY, and one whose cached settings fail trains fully; after zeroing INIT_DONE
is 1 and every byte reads 0 (R355, R366, R367). Model's choices that it rests on: log entries 9, 87, 88. -/
def Obligations.MemoryInitialisation : Prop :=
  ∀ (s : State) (i : Fin 16), pageUp s .stk = true →
    (∀ dimms, hostOpen s .stk = true →
      ∃ t, exec (.reinit dimms) s = .next t ∧ t.stk.initDone = false ∧ t.stk.initRunning = true ∧
        t.stk.dimms = dimms ∧ (∀ a, memByte t.stk a = 0) ∧ (t.sub i).queue = [] ∧ (t.sub i).reads = [] ∧
        ∀ x d, (x, d) ∈ (s.sub i).reads → x.write = false → x.fetch = false → x.requester ≠ .scrub →
          x.requester ≠ .reRead → returnedView t.stk x.requester x.line = some poisonView) ∧
    ((s.sub i).state = .train →
      ∃ t, exec (.trainingDone i true) s = .next t ∧ (t.sub i).state = .ready ∧ (t.sub i).restored = false ∧
        (t.sub i).retrainAt = s.tick + retrainTicks s ∧ ∀ j, j ≠ i → t.sub j = s.sub j) ∧
    ((s.sub i).state = .restore →
      ∃ t, exec (.trainingDone i false) s = .next t ∧ (t.sub i).state = .train ∧ ∀ j, j ≠ i → t.sub j = s.sub j) ∧
    (s.stk.zeroing = true → NothingWaits s →
      ∃ t, exec .zeroingDone s = .next t ∧ t.stk.initDone = true ∧ t.stk.zeroing = false ∧
        evtOn t .stk 0 ∧ ∀ a, memByte t.stk a = 0)

/-- Retraining and fencing: a retraining that finds a setting is counted, one that does not is attempted again 160,000
and 320,000 ticks later, and the last failure fences the subchannel; each pauses issue by at most 4,096 clock cycles.
A write of STK_FENCE fences the subchannels it names, whose queued reads return poison (R371 to R374). Model's choices
that it rests on: log entries 87, 88. -/
def Obligations.RetrainingAndFencing : Prop :=
  ∀ (s : State) (i : Fin 16), pageUp s .stk = true →
    ((s.sub i).state = .ready → (s.sub i).retrainAt = s.tick →
      (∃ t, exec (.retrain i true) s = .next t ∧ (t.sub i).retrainDone = (s.sub i).retrainDone + 1 ∧
        (t.sub i).retrainAt = s.tick + retrainTicks s ∧ (t.sub i).state = .ready ∧
        (t.sub i).pauseUntil ≤ s.tick + pauseMax s) ∧
      ∃ t, exec (.retrain i false) s = .next t ∧ (t.sub i).retrainFailed = (s.sub i).retrainFailed + 1 ∧
        (t.sub i).retryAt = [s.tick + 160000, s.tick + 320000] ∧ evtOn t .stk 4 ∧ (t.sub i).state = .ready) ∧
    (∀ r, (s.sub i).state = .ready → (s.sub i).retryAt = [s.tick, r] →
      ∃ t, exec (.retrainRetry i false) s = .next t ∧ (t.sub i).retryAt = [r] ∧ (t.sub i).state = .ready ∧
        (t.sub i).retrainFailed = (s.sub i).retrainFailed + 1 ∧ evtOn t .stk 4) ∧
    ((s.sub i).state = .ready → (s.sub i).retryAt = [s.tick] → NothingWaits s →
      (∃ t, exec (.retrainRetry i true) s = .next t ∧ (t.sub i).retryAt = [] ∧ (t.sub i).state = .ready ∧
        (t.sub i).retrainDone = (s.sub i).retrainDone + 1) ∧
      ∃ t, exec (.retrainRetry i false) s = .next t ∧ (t.sub i).state = .fenced ∧ evtOn t .stk 1 ∧
        t.stk.fence.getLsbD i.val = true) ∧
    ∀ mask, hostOpen s .stk = true → NothingWaits s →
      ∃ t, exec (.fence mask) s = .next t ∧ t.stk.fence = mask ∧ t.stk.mem = s.stk.mem ∧
        ∀ j : Fin 16, mask.getLsbD j.val = true → (s.sub j).state ≠ .absent →
          (t.sub j).state = .fenced ∧
          ((s.sub j).state ≠ .fenced →
            (t.sub j).queue = [] ∧
            ∀ x ∈ (s.sub j).queue, x.write = false → x.fetch = false → x.requester ≠ .scrub → x.requester ≠ .reRead →
              returnedView t.stk x.requester x.line = some poisonView)

/-- A rate change starts when no folio records and no training runs, and it is done when no subchannel trains; a store
of the training cache is requested, and the cache that a good store leaves is valid for every subchannel, while one
whose read-backs fail to the end, or that does not fit the flash, is detected with code 0x64 (R368, R369, R375).
Model's choices that it rests on: log entries 88, 91, 92. -/
def Obligations.RateChangeAndTrainingCache : Prop :=
  ∀ (s : State), pageUp s .stk = true →
    (∀ r, s.stk.wantRate = some r → s.stk.initDone = true → s.stk.rateBusy = false → anyRecording s = false →
      s.stk.subs.toList.any trains = false →
      ∃ t, exec .rateChangeStart s = .next t ∧ t.stk.rateBusy = true ∧ t.stk.liveRate = r ∧
        t.stk.wantRate = none ∧ t.stk.mem = s.stk.mem ∧ ∀ i, (s.sub i).state = .ready → (t.sub i).state = .rate) ∧
    (s.stk.rateBusy = true → s.stk.subs.toList.any trains = false → NothingWaits s →
      ∃ t, exec .rateDone s = .next t ∧ t.stk.rateBusy = false ∧ evtOn t .stk 5 ∧
        t.stk.mem = s.stk.mem) ∧
    (hostOpen s .stk = true → s.stk.tcBusy = false → s.flash.use = .free →
      ∃ t, exec .tcStore s = .next t ∧ t.stk.tcBusy = true ∧ t.flash = { s.flash with use := .cache }) ∧
    ∀ n, CanonicalStores s → s.stk.tcBusy = true → s.flash.use = .cache →
      (tcBase s + 0x20000 ≤ flashSize s.flash → n ≤ stkRetry s →
        ∃ t, exec (.tcStoreDone n) s = .next t ∧ t.stk.tcBusy = false ∧ evtOn t .stk 6 ∧
          ∀ i, cacheValid t i = true) ∧
      (flashSize s.flash < tcBase s + 0x20000 ∨ stkRetry s < n →
        ∃ t, exec (.tcStoreDone n) s = .next t ∧ t.stk.tcBusy = false ∧ evtOn t .stk 7 ∧
          ∃ l, t.mgmt.detected = s.mgmt.detected ++ [(s.tick, l)] ∧ l.code = 0x64 ∧ l.cls = 1)

/-! ## The host link (chapter 15) -/

/-- Link events: link up and a change of rate or width set the link's fields and their events; link down and a
function-level reset put the DMA and MSI-X registers at their reset values and keep HL_CFG; a link down closes every
shutter with cause 7 when DOWN_ACT is 1, and no shutter otherwise; while the link is down no access to BAR0 or BAR2
reaches the device (R397, R398, R457, R503). A correctable link error counts and sets COR_ERR, and the first of its
kind in a window of 160,000 ticks is detected with code 0x71; an uncorrectable one counts, sets UNC_ERR and is
detected with code 0x72 and lasting class (R386, R396). Model's choices that it rests on: log entries 97, 98. -/
def Obligations.HostLinkEvents : Prop :=
  (∀ s : State, domUp s 1 = true →
    (∀ r w, (Instr.linkUp r w).wf = true → s.host.linkUp = false → s.host.perst = false →
      ∃ t, exec (.linkUp r w) s = .next t ∧ PageFrame .host { s with host := t.host } t ∧ evtOn t .host 1 ∧
        t.host.linkUp = true ∧ t.host.rate = r ∧ t.host.width = w ∧ t.host.dma = s.host.dma) ∧
    (∀ r w, (Instr.linkRateOrWidthChange r w).wf = true → s.host.linkUp = true →
      ∃ t, exec (.linkRateOrWidthChange r w) s = .next t ∧ PageFrame .host { s with host := t.host } t ∧
        evtOn t .host 2 ∧ t.host.rate = r ∧ t.host.width = w ∧ t.host.linkUp = true ∧ t.host.dma = s.host.dma) ∧
    (s.host.linkUp = true →
      ∃ t, exec .linkDown s = .next t ∧ evtOn t .host 0 ∧ t.host.linkUp = false ∧ t.host.rate = 0 ∧ t.host.width = 0 ∧
        t.host.bme = false ∧ t.host.dma = HostLink.reset.dma ∧ t.host.msix = HostLink.reset.msix ∧
        liveWord t .host 0x044 = liveWord s .host 0x044 ∧
        (∀ i, t.page (.dma i) = PageHdr.reset (vecReset (.dma i))) ∧ t.page .msix = PageHdr.reset (vecReset .msix) ∧
        (liveBit s .host 0x044 0 = false → t.chans = s.chans ∧ t.bays = s.bays) ∧
        (liveBit s .host 0x044 0 = true → ∀ g, bayUp s (bayOf g) = true → (s.chan g).force.switch = .on →
          (t.chan g).force.switch = .closing s.tick ∧ (t.chan g).force.closeCause = 7)) ∧
    (∃ t, exec .flr s = .next t ∧ evtOn t .host 6 ∧ t.host.dma = HostLink.reset.dma ∧
      t.host.msix = HostLink.reset.msix ∧ liveWord t .host 0x044 = liveWord s .host 0x044 ∧
      (∀ i, t.page (.dma i) = PageHdr.reset (vecReset (.dma i))) ∧ t.chans = s.chans ∧ t.bays = s.bays) ∧
    (s.host.linkUp = false →
      (∀ p, exec (.commitGo p) s = .next s) ∧
      (∀ a l full, (Instr.registerWrite a l full).wf = true → exec (.registerWrite a l full) s = .next s) ∧
      (∀ a n full, (Instr.registerRead a n full).wf = true → exec (.registerRead a n full) s = .next s) ∧
      ∀ off op, wfBar2 op = true → exec (.bar2Access off op) s = .next s) ∧
    ∃ t, exec .perstRelease s = .next t ∧ t.host.perst = false ∧ t = { s with host := t.host } ∧
      t.host = { s.host with perst := false }) ∧
  ∀ s : State, domUp s 1 = true →
    (∀ k, ∃ t, exec (.corErr k) s = .next t ∧ evtOn t .host 3 ∧ t.host.cor[corIdx k] = s.host.cor[corIdx k] + 1 ∧
      (∀ i, i ≠ corIdx k → t.host.cor[i] = s.host.cor[i]) ∧ t.host.unc = s.host.unc ∧
      t.host.aerCor = s.host.aerCor ||| bit1 (aerCorBit k s) ∧
      (s.host.corWin[corIdx k] ≠ some (s.tick / 160000) →
        ∃ e, t.mgmt.detected = s.mgmt.detected ++ [(s.tick, e)] ∧ e.code = 0x71 ∧ e.cls = 0 ∧ e.time = s.time ∧
          e.unit = BitVec.ofNat 16 (corIdx k).val) ∧
      (s.host.corWin[corIdx k] = some (s.tick / 160000) → t.mgmt = s.mgmt) ∧ t.chans = s.chans ∧ t.bays = s.bays) ∧
    ∀ k, ∃ t, exec (.uncErr k) s = .next t ∧ evtOn t .host 4 ∧ t.host.unc[uncIdx k] = s.host.unc[uncIdx k] + 1 ∧
      (∀ i, i ≠ uncIdx k → t.host.unc[i] = s.host.unc[i]) ∧ t.host.cor = s.host.cor ∧
      t.host.aerUnc = s.host.aerUnc ||| bit1 (aerUncBit k s) ∧
      (∃ e, t.mgmt.detected = s.mgmt.detected ++ [(s.tick, e)] ∧ e.code = 0x72 ∧ e.cls = 1 ∧ e.time = s.time ∧
        e.unit = BitVec.ofNat 16 (uncIdx k).val) ∧ t.chans = s.chans ∧ t.bays = s.bays

/-- BAR2: the base register takes eleven bits; an offset is added to 2^30 times the base. While no memory is served a
request waits behind those that wait already. A read of lines that are free answers DRAM's bytes, poisoned where a
block that it touches is; a write of such lines reaches DRAM at that address, and bytes of other blocks keep their
values, as do the other bytes of its own blocks where they read without error (R377, R382, R383, R349). Model's
choices that it rests on: log entries 86, 117. -/
def Obligations.Bar2Accesses : Prop :=
  ∀ s : State, hostOpen s .host = true →
    (∀ w, ∃ t, exec (.bar2BaseWrite w) s = .next t ∧ t = { s with host := t.host } ∧
      t.host = { s.host with bar2Base := w.extractLsb' 0 11 }) ∧
    (∀ off op, wfBar2 op = true → memServes s = false → ∃ t, exec (.bar2Access off op) s = .next t ∧
      t.host = { s.host with bar2Wait := s.host.bar2Wait ++ [{ addr := bar2Addr s off, op := op }] } ∧
      t.stk.mem = s.stk.mem ∧ t.out = s.out ∧ (s.stk.sref = true → t.stk.srefExit = true)) ∧
    (∀ off len, wfBar2 (.read len [] []) = true → MemoryFree s (bar2Addr s off) len →
      (∀ l, returnedView s.stk .bar2 l = none) →
      ∃ t, exec (.bar2Access off (.read len [] [])) s = .next t ∧ t.stk.mem = s.stk.mem ∧
        t.out.bar2.length = len ∧ t.chans = s.chans ∧ t.bays = s.bays ∧
        (t.out.bar2Poisoned = true ↔ ∃ i, i < len ∧ (bar2Addr s off + i) / 32 ∈ s.stk.poison) ∧
        ∀ i, i < len → (bar2Addr s off + i) / 32 ∉ s.stk.poison →
          t.out.bar2[i]? = some (memByte s.stk (bar2Addr s off + i))) ∧
    ∀ off bytes, CanonicalStores s → wfBar2 (.write bytes false []) = true →
      MemoryFree s (bar2Addr s off) bytes.length →
      let a0 := bar2Addr s off
      ∃ t, exec (.bar2Access off (.write bytes false [])) s = .next t ∧ t.chans = s.chans ∧ t.bays = s.bays ∧
        (∀ i b, bytes[i]? = some (some b) → memByte t.stk (a0 + i) = b) ∧
        (∀ a, a / 32 < a0 / 32 ∨ (a0 + bytes.length - 1) / 32 < a / 32 → memByte t.stk a = memByte s.stk a) ∧
        ∀ a, a / 32 ∉ s.stk.poison → (∀ i b, bytes[i]? = some (some b) → a ≠ a0 + i) →
          memByte t.stk a = memByte s.stk a

/-- A doorbell sets TAIL and starts an idle queue; STOP returns a halted queue to IDLE and lets a working one complete
its descriptor; RESUME goes on at HEAD; nothing else changes (R387, R389, R390). Bus Master Enable pauses and resumes
the working queues and leaves the others, and the writes that it held back leave when it is 1; the bases of the BARs
keep the alignment of their sizes; unmasking a vector sends its pending message once (R380, R393, R394). Model's
choices that it rests on: log entries 30, 96. -/
def Obligations.DmaRequestsAndMsix : Prop :=
  (∀ (s : State) (q : Fin 16), hostOpen s (dmaPage q) = true →
    (∀ w, ∃ t, exec (.doorbell q w) s = .next t ∧ t = { s with host := t.host } ∧
      (t.dmaQ q).tail = BitVec.ofNat 16 ((w.extractLsb' 0 16).toNat % dmaSize s q) ∧ (t.dmaQ q).head = (s.dmaQ q).head ∧
      ((s.dmaQ q).state ≠ .idle → (t.dmaQ q).state = (s.dmaQ q).state) ∧
      ((s.dmaQ q).state = .idle → (t.dmaQ q).tail ≠ (s.dmaQ q).head →
        (t.dmaQ q).state = if s.host.bme then .active else .paused) ∧
      ∀ r, r ≠ q → t.dmaQ r = s.dmaQ r) ∧
    (∃ t, exec (.dmaStop q) s = .next t ∧ t = { s with host := t.host } ∧ (t.dmaQ q).head = (s.dmaQ q).head ∧
      ((s.dmaQ q).state = .halted → (t.dmaQ q).state = .idle) ∧
      ((s.dmaQ q).state = .active → (t.dmaQ q).state = .active ∧ (t.dmaQ q).stopReq = true) ∧
      ∀ r, r ≠ q → t.dmaQ r = s.dmaQ r) ∧
    ∃ t, exec (.resume q) s = .next t ∧ t = { s with host := t.host } ∧ (t.dmaQ q).head = (s.dmaQ q).head ∧
      ((s.dmaQ q).state = .halted → (s.dmaQ q).head ≠ (s.dmaQ q).tail → s.host.bme = true →
        (t.dmaQ q).state = .active) ∧
      ((s.dmaQ q).state = .active → t.dmaQ q = s.dmaQ q) ∧ ∀ r, r ≠ q → t.dmaQ r = s.dmaQ r) ∧
  ∀ s : State,
    (∀ on m ctl, domUp s 1 = true → ∃ t, exec (.busMasterEnableChange on m ctl) s = .next t ∧
      t.host.bme = on ∧ t.host.msixEn = m.en ∧ t.host.funcMask = m.mask ∧ t.pages = s.pages ∧ t.chans = s.chans ∧
      t.host.ctl = { ctl with bar0 := t.host.ctl.bar0, bar2 := t.host.ctl.bar2 } ∧
      (∀ k, t.host.ctl.bar0.getLsbD k = (decide (24 ≤ k) && ctl.bar0.getLsbD k)) ∧
      (∀ k, t.host.ctl.bar2.getLsbD k = (decide (36 ≤ k) && ctl.bar2.getLsbD k)) ∧
      (on = true → t.out.writes = s.out.writes ++ s.host.heldWrites ∧ t.host.heldWrites = []) ∧
      ∀ q, (t.dmaQ q).head = (s.dmaQ q).head ∧
        ((s.dmaQ q).state = .active → (t.dmaQ q).state = if on then .active else .paused) ∧
        ((s.dmaQ q).state = .paused → (t.dmaQ q).state = if on then .active else .paused) ∧
        ((s.dmaQ q).state = .halted → t.dmaQ q = s.dmaQ q)) ∧
    ∀ v, hostOpen s .msix = true → ∃ t, exec (.msixUnmask v) s = .next t ∧ t.pages = s.pages ∧ t.chans = s.chans ∧
      t.host.msix[v].masked = false ∧ (∀ u, u ≠ v → t.host.msix[u] = s.host.msix[u]) ∧
      (s.host.msixEn = true → s.host.funcMask = false → s.host.msix[v].pend = true →
        t.host.msix[v].pend = false ∧
        t.out.msgs = s.out.msgs ++
          [{ vector := BitVec.ofNat 6 v.val, addr := s.host.msix[v].addr, data := s.host.msix[v].data }]) ∧
      (s.host.msix[v].pend = false → t.out = s.out)

/-- A queue takes the 32 bytes of ring entry HEAD. Descriptors: one that names nothing to move completes with BAD_DESC
and halts the queue; H2D and D2H move LENGTH bytes between the host and DRAM, in turns of 4,096 bytes where the other
queues have theirs; a SHELF descriptor takes the words that its reader sees, in order, and completes when LENGTH bytes
are written or SHF_TMO ticks after the last word; completion moves HEAD on and counts bytes and descriptors (R387 to
R391). Model's choices that it rests on: log entries 86, 95. -/
def Obligations.DescriptorsComplete : Prop :=
  ∀ (s : State) (q : Fin 16), pageUp s (dmaPage q) = true → (s.dmaQ q).state = .active →
    (∀ entry x, (Instr.descriptorComplete q entry x).wf = true → s.host.bme = true → (s.dmaQ q).cur = none →
      let d := readDesc entry
      let next := BitVec.ofNat 16 (((s.dmaQ q).head.toNat + 1) % dmaSize s q)
      let fetched (t : State) : Prop := (BitVec.ofNat 64 (descAt s q (s.dmaQ q).head.toNat), 32) ∈ t.out.reads
      let free := MemoryFree s d.devAddr.toNat d.length.toNat ∧ memServes s = true ∧
        ∀ l, returnedView s.stk (.dma q) l = none
      (badDesc (dmaType s q == 2) d = true →
        ∃ t, exec (.descriptorComplete q entry x) s = .next t ∧ t.chans = s.chans ∧ t.stk = s.stk ∧ fetched t ∧
          (t.dmaQ q).state = .halted ∧ (t.dmaQ q).flags = 32 ∧ (t.dmaQ q).bytes = (s.dmaQ q).bytes ∧
          (t.dmaQ q).descs = (s.dmaQ q).descs + 1 ∧ evtOn t (dmaPage q) (dmaEvt q 1) ∧ (t.dmaQ q).head = next ∧
          { addr := BitVec.ofNat 64 (descAt s q (s.dmaQ q).head.toNat + 0x18),
            bytes := leBytes 4 0x80000020 ++ leBytes 4 0,
            poisoned := false } ∈ t.out.writes) ∧
      (badDesc false d = false → dmaType s q = 1 → free →
        ∃ t, exec (.descriptorComplete q entry x) s = .next t ∧ t.chans = s.chans ∧ t.stk.mem = s.stk.mem ∧ fetched t ∧
          (x.turn = false →
            (t.dmaQ q).descs = (s.dmaQ q).descs + 1 ∧ (t.dmaQ q).cur = none ∧ (t.dmaQ q).head = next ∧
            (t.dmaQ q).bytes = (s.dmaQ q).bytes + BitVec.ofNat 64 d.length.toNat ∧
            (descIrq d = true → evtOn t (dmaPage q) (dmaEvt q 0))) ∧
          (x.turn = true → 4096 < d.length.toNat →
            (t.dmaQ q).descs = (s.dmaQ q).descs ∧ (t.dmaQ q).cur = some d ∧ (t.dmaQ q).moved = 4096 ∧
            (t.dmaQ q).head = (s.dmaQ q).head)) ∧
      (badDesc false d = false → dmaType s q = 0 → free → CanonicalStores s → x.turn = false → x.failedAt = none →
        x.poisoned = [] →
        ∃ t, exec (.descriptorComplete q entry x) s = .next t ∧ t.chans = s.chans ∧ fetched t ∧
          (t.dmaQ q).descs = (s.dmaQ q).descs + 1 ∧ (t.dmaQ q).cur = none ∧ (t.dmaQ q).head = next ∧
          (t.dmaQ q).bytes = (s.dmaQ q).bytes + BitVec.ofNat 64 d.length.toNat ∧
          ∀ k, k < d.length.toNat → memByte t.stk (d.devAddr.toNat + k) = x.bytes[k]?.getD 0) ∧
      (badDesc true d = false → dmaType s q = 2 → pageUp s (.shelf (dmaBay s q)) = true →
        let n := min (readerFill (s.bay (dmaBay s q)).shelf) (d.length.toNat / 4 - (s.dmaQ q).taken.length)
        let l := (shelfTakeN (dmaBay s q) n (descTaken q d s)).1
        ∃ t, exec (.descriptorComplete q entry x) s = .next t ∧ t.chans = s.chans ∧ fetched t ∧
          (((s.dmaQ q).taken ++ l).length < d.length.toNat / 4 →
            (t.dmaQ q).taken = (s.dmaQ q).taken ++ l ∧ (t.dmaQ q).cur = some d ∧
            (t.dmaQ q).descs = (s.dmaQ q).descs) ∧
          (d.length.toNat / 4 ≤ ((s.dmaQ q).taken ++ l).length →
            (t.dmaQ q).taken = [] ∧ (t.dmaQ q).descs = (s.dmaQ q).descs + 1))) ∧
    ∀ d, (s.dmaQ q).cur = some d → (s.dmaQ q).taken ≠ [] → shfTmo s (dmaBay s q) ≠ 0 →
      (s.dmaQ q).lastTake + shfTmo s (dmaBay s q) ≤ s.tick → readerFill (s.bay (dmaBay s q)).shelf = 0 →
      ∃ t, exec (.shelfDescTimeout q) s = .next t ∧ t.chans = s.chans ∧ (t.dmaQ q).taken = [] ∧
        (t.dmaQ q).flags = 1 ∧ (t.dmaQ q).descs = (s.dmaQ q).descs + 1 ∧
        (t.dmaQ q).bytes = (s.dmaQ q).bytes + BitVec.ofNat 64 (4 * (s.dmaQ q).taken.length)

/-! ## The Ndolek link (chapter 16) -/

/-- The frame on the wire: what 80 bytes hold is read back as it was written, and their CRC matches (R404, R405).
Frames: frame k leaves at its frame tick, numbered by k, with the earliest edge held for each line; a good frame notes
its sequence number and NACKs those missing before it, a bad one is counted and NACKed, and with 64 in a row the port
goes down; the first good frame from above joins a linking device and gives it its position (R402, R403, R411, R416).
Messages: SEND queues the message of NDK_MSG_TX, or is refused while one waits; a read of NDK_MSG_RX3 answers the last
word of the oldest message and removes it (R418). Model's choices that it rests on: log entries 99, 100, 103. -/
def Obligations.FramesAndMessages : Prop :=
  (∀ f : Frame, (frameBytes f).length = 80 ∧ frameCrcOk (frameBytes f) = true ∧ readFrame (frameBytes f) = f) ∧
  (∀ (s : State) (p : Port), s.locked = true →
    (sendsOn s p = true → frameTickOf (frameNo s.time.toNat) = s.time.toNat →
      (ndkTx s.ndolek p).lastFrame ≠ some s.tick →
      let f := makeFrame s p (frameNo s.time.toNat)
      ∃ t, exec (.frameSend p) s = .next t ∧ t.out.frames = s.out.frames ++ [(p, frameBytes f)] ∧
        f.fseq = BitVec.ofNat 8 (frameNo s.time.toNat) ∧ f.frameTick = s.time ∧
        (∀ (i : Fin 8) h rest, (ndkTx s.ndolek p).held[i] = h :: rest →
          f.trig[i].rise = true ∧ f.trig[i].e = BitVec.ofInt 28 h.e ∧ (ndkTx t.ndolek p).held[i] = rest) ∧
        (∀ m, msgOut s p = false → (ndkTx s.ndolek p).msgs = [] → (p == .up) ≠ isRoot s → s.ndolek.txMsg = some m →
          f.msg = some m ∧ t.ndolek.txMsg = none) ∧
        (isRoot s = false ∨ s.ndolek.txMsg = none →
          t = { s with ndolek := t.ndolek, out := { s.out with frames := t.out.frames } })) ∧
    (∀ b w a x, b.length = 76 → frameCrcOk (frameWire b w) = false → portLink s.ndolek p = true →
      (rxBad s.ndolek p < 63 →
        ∃ t, exec (.frameReceive p b w a x) s = .next t ∧ t = { s with ndolek := t.ndolek } ∧
          rxBad t.ndolek p = rxBad s.ndolek p + 1 ∧
          (∀ q, rxSeq s.ndolek p = some q →
            rxSeq t.ndolek p = some (q + 1) ∧ (ndkTx t.ndolek p).nack = (ndkTx s.ndolek p).nack ++ [q + 1])) ∧
      (63 ≤ rxBad s.ndolek p → ∃ t, exec (.frameReceive p b w a x) s = .next t ∧ portLink t.ndolek p = false)) ∧
    ∀ b w a x, b.length = 76 → frameCrcOk (frameWire b w) = true →
      (portLink s.ndolek p = true →
        ∃ t, exec (.frameReceive p b w a x) s = .next t ∧ rxSeq t.ndolek p = some (readFrame (frameWire b w)).fseq ∧
          rxBad t.ndolek p = 0 ∧
          (ndkTx t.ndolek p).nack = (ndkTx s.ndolek p).nack ++ missing (rxSeq s.ndolek p) (readFrame (frameWire b w)).fseq) ∧
      (s.ndolek.upLink = true → s.ndolek.state = .linking → s.ndolek.long = false → s.ndolek.joined = false →
        (readFrame (frameWire b w)).hop.toNat < 32 →
        ∃ t, exec (.frameReceive .up b w a x) s = .next t ∧ t.ndolek.state = .measuring ∧ t.ndolek.joined = true ∧
          t.ndolek.position = (readFrame (frameWire b w)).hop.setWidth 5 ∧ t.ndolek.lagNext = some (readFrame (frameWire b w)).lag ∧
          t.ndolek.level = frameLevels (readFrame (frameWire b w)))) ∧
  ∀ s : State, hostOpen s .ndolek = true →
    (s.ndolek.txMsg = none →
      ∃ t, exec .send s = .next t ∧ t = { s with ndolek := { s.ndolek with txMsg := some s.ndolek.msgTx } }) ∧
    (s.ndolek.txMsg ≠ none →
      ∃ t, exec .send s = .next t ∧ PageFrame .ndolek s t ∧ evtOn t .ndolek evtMsgRefused) ∧
    (∀ m rest, s.ndolek.rx = m :: rest →
      ∃ t, exec .msgRxRead s = .next t ∧ t = { s with ndolek := { s.ndolek with rx := rest }, out := t.out } ∧
        t.out.read = [m[3]]) ∧
    (s.ndolek.rx = [] → ∃ t, exec .msgRxRead s = .next t ∧ t.ndolek = s.ndolek ∧ t.out.read = [0])

/-- A super-period begins where system time is a multiple of 512: at the root LAG and a requested load of system time
take effect, at another device the received LAG, a slew against the phase error and a step of its time, and 64 whole
super-periods with a small phase error align it (R403, R407, R409, R410, R414). Ports: a port that comes up or goes
down sets its event, a loss is detected with code 0x80, and a loss of the port UP puts a device that is no root in
HOLDOVER (R411). Model's choices that it rests on: log entries 83, 101, 104. -/
def Obligations.SuperPeriodsAndPorts : Prop :=
  (∀ s : State,
    (onMult s 512 = true → s.ndolek.lastSuper ≠ some s.tick →
      ∃ t, exec .superPeriod s = .next t ∧ t.ndolek.lastSuper = some s.tick ∧ t.tick = s.tick ∧ t.chans = s.chans ∧
        (isRoot s = true → t.ndolek.lagLive = BitVec.ofNat 16 (live s .ndolek 0x044 0 16) ∧
          t.ndolek.lagMin = BitVec.ofNat 16 (2 * (ndkPmax s.ndolek).toNat + 103) ∧ t.ndolek.loadReq = false ∧
          t.time = if s.ndolek.loadReq then timeLoad s else s.time) ∧
        (archiveOn s = true → t.archive.ndkLag = t.ndolek.lagLive) ∧
        (isRoot s = false → (∀ l, s.ndolek.lagNext = some l → t.ndolek.lagLive = l) ∧
          (steers s.ndolek = true → t.ndolek.steer = s.ndolek.steer - s.ndolek.phase.toInt.sign) ∧
          (superGood s.ndolek = true → t.ndolek.state = if 63 ≤ s.ndolek.goodRun then .aligned else .measuring) ∧
          (s.ndolek.stepTo = none → t.time = s.time) ∧
          (∀ d, s.ndolek.stepTo = some d → t.time = s.time + BitVec.ofInt 64 d ∧ t.ndolek.step = BitVec.ofInt 64 d ∧
            (pageUp s .ndolek = true → evtOn t .ndolek evtTimeStep)))) ∧
    (hostOpen s .ndolek = true → isRoot s = true →
      ∃ t, exec .ndkLoad s = .next t ∧ t = { s with ndolek := { s.ndolek with loadReq := true } })) ∧
  ∀ (s : State) (p : Port), pageUp s .ndolek = true →
    (portLink s.ndolek p = true →
      ∃ t, exec (.linkLost p) s = .next t ∧ portLink t.ndolek p = false ∧ evtOn t .ndolek evtLinkLost ∧
        (p = .up → s.ndolek.state ≠ .root → t.ndolek.state = .holdover) ∧
        (s.ndolek.state = .root ∨ p = .down → t.ndolek.state = s.ndolek.state) ∧ t.time = s.time ∧ t.chans = s.chans ∧
        ∃ e, t.mgmt.detected = s.mgmt.detected ++ [(s.tick, e)] ∧ e.code = 0x80 ∧
          e.unit = BitVec.ofNat 16 (portUnit p) ∧ e.cls = 1) ∧
    (portLink s.ndolek p = false →
      ∃ t, exec (.portLinkUp p) s = .next t ∧ portLink t.ndolek p = true ∧ evtOn t .ndolek evtLinkUp ∧
        (p = .up → s.ndolek.state ≠ .root → t.ndolek.state = .linking ∧ t.ndolek.measured = false) ∧
        (s.ndolek.state = .root ∨ p = .down → t.ndolek.state = s.ndolek.state) ∧ t.mgmt = s.mgmt ∧ t.chans = s.chans)

/-- Lines: a drive holds its line for TWIDTH ticks, sends an edge at its tick when the line was not driven, and is
lost on a device that is not aligned; an edge that is due is raised as its line's source and presented to the folios
(R412 to R414, R329). A trigger pin's selected edge, whose level before it stood two ticks, raises the pin's source
and is presented to the folios; another edge raises nothing (R329, R470). Model's choices that it rests on: log
entries 102, 105. -/
def Obligations.LinesAndPins : Prop :=
  (∀ (s : State) (i : Fin 8),
    (∀ d, viaOpen (.task d) s .ndolek = true → linkAligned s = false →
      ∃ t, exec (.driveLine i d) s = .next t ∧ t = { s with ndolek := { s.ndolek with lost := s.ndolek.lost + 1 } }) ∧
    (∀ d, viaOpen (.task d) s .ndolek = true → linkAligned s = true → isRoot s = false → driving s i = false →
      (ndkTx s.ndolek .up).held[i] = [] →
      ∃ t, exec (.driveLine i d) s = .next t ∧ t = { s with ndolek := t.ndolek } ∧
        t.ndolek.drive[i] = some (s.tick + driveWidth s) ∧
        t.ndolek.up.held[i] = [{ e := 16 * s.time.toNat, merged := false, tries := 0 }] ∧
        ∀ j, j ≠ i → t.ndolek.drive[j] = s.ndolek.drive[j] ∧ t.ndolek.up.held[j] = s.ndolek.up.held[j]) ∧
    (s.ndolek.drive[i] = some s.tick →
      ∃ t, exec (.driveEnd i) s = .next t ∧ t = { s with ndolek := t.ndolek } ∧ driving t i = false ∧
        ∀ j, j ≠ i → t.ndolek.drive[j] = s.ndolek.drive[j]) ∧
    ∀ x, linkAligned s = true → edgesNow s i = [x] → domUp s 3 = true →
      ∃ t, exec (.lineEdgeRaise i) s = .next t ∧
        t.transom.raised = s.transom.raised ++
          [{ sid := devSid (0x20 + i.val), tick := s.tick, enterAt := s.tick + 2, depth := s.actDepth }] ∧
        edgesNow t i = [] ∧ (∀ j, j ≠ i → t.ndolek.raise[j] = s.ndolek.raise[j]) ∧ t.chans = s.chans ∧
        ∀ f, archiveOn s = true → folioTrigEn s f (4 + i.val) = true → 0 ≤ x.e →
          s.time.toNat < 4 * (x.e.toNat / 64) + 12 + judgeLag s f → (4 + i.val, x.e.toNat) ∈ (t.folio f).conds) ∧
  ∀ (s : State) (k : Fin 4) (rising : Bool) (sub : Fin 16), archiveOn s = true → s.locked = true →
    (pinSelects s k rising = false →
      ∃ t, exec (.triggerPinEdge k rising sub) s = .next t ∧ t.transom.raised = s.transom.raised ∧
        t.archive.pinEdge[k] = some (16 * s.tick + sub.val) ∧
        t = { s with archive := { s.archive with pinEdge := t.archive.pinEdge } }) ∧
    (pinSelects s k rising = true → pinStood s k (16 * s.tick + sub.val) = true →
      ∃ t, exec (.triggerPinEdge k rising sub) s = .next t ∧ t.archive.pinEdge[k] = some (16 * s.tick + sub.val) ∧
        (∃ x ∈ t.transom.raised, x.sid = devSid (0x10 + k.val) ∧ x.tick = s.tick ∧
          (x.enterAt = s.tick + 1 ∨ x.enterAt = s.tick + 2)) ∧ t.chans = s.chans)

/-! ## The fault log and resets (chapter 17) -/

/-- The log takes a detection of an earlier tick as its next entry, counts its class, sets its event, and counts an
unread entry that it overwrites as lost; the first lasting entry is kept in FLT_FIRST until REARM; FLT_ACK takes
effect only for a number in the log (R426, R427). That the detection is of an earlier tick is the model's choice
(DESIGN CHOICE, log entry 106). -/
def Obligations.FaultLogTakesEntries : Prop :=
  ∀ s : State, s.power.powered = true → pageUp s .device = true →
    (∀ x, logNext s.mgmt.detected = some x → x.1 < s.tick →
      ∃ t, exec .faultLogEntry s = .next t ∧ t.mgmt.fltSeq = s.mgmt.fltSeq + 1 ∧
        t.mgmt.log[(⟨s.mgmt.fltSeq.toNat % 256, Nat.mod_lt _ (by decide)⟩ : Fin 256)] =
          { x.2 with seq := s.mgmt.fltSeq.setWidth 16 } ∧
        (∀ k : Fin 256, k.val ≠ s.mgmt.fltSeq.toNat % 256 → t.mgmt.log[k] = s.mgmt.log[k]) ∧
        t.mgmt.detected = s.mgmt.detected.erase x ∧ evtOn t .device (classEvt x.2.cls) ∧
        t.mgmt.nLasting = (if x.2.cls = 1 then s.mgmt.nLasting + 1 else s.mgmt.nLasting) ∧
        t.mgmt.nTrans = (if x.2.cls = 0 then s.mgmt.nTrans + 1 else s.mgmt.nTrans) ∧
        t.mgmt.nNotice = (if x.2.cls = 2 then s.mgmt.nNotice + 1 else s.mgmt.nNotice) ∧
        (x.2.cls = 1 → s.mgmt.firstValid = false →
          t.mgmt.firstValid = true ∧ t.mgmt.first = { x.2 with seq := s.mgmt.fltSeq.setWidth 16 }) ∧
        (s.mgmt.firstValid = true → t.mgmt.first = s.mgmt.first) ∧
        ((s.mgmt.fltSeq - s.mgmt.fltAck).toNat < 256 → t.mgmt.fltLost = s.mgmt.fltLost) ∧
        (256 ≤ (s.mgmt.fltSeq - s.mgmt.fltAck).toNat →
          t.mgmt.fltLost = s.mgmt.fltLost + 1 ∧ evtOn t .device evtLogLost) ∧
        t.chans = s.chans ∧ t.bays = s.bays) ∧
    (hostOpen s .device = true →
      (∀ w, ∃ t, exec (.fltAckWrite w) s = .next t ∧ t = { s with mgmt := t.mgmt } ∧
        t.mgmt = { s.mgmt with fltAck := if (s.mgmt.fltSeq - w).toNat ≤ 256 then w else s.mgmt.fltAck }) ∧
      ∃ t, exec .fltRearm s = .next t ∧ t = { s with mgmt := { s.mgmt with firstValid := false } })

/-- DEV_RST: a bay reset closes the shutters of the bay with cause 0 at the write; a bay or the DMA queues take their
reset state at the first frame boundary at least 16 ticks later, with RESET_DONE; a reset of a bay whose domain is off
completes at once and changes nothing (R429, R430). Model's choices that it rests on: log entry 107. -/
def Obligations.ResetsOfTargets : Prop :=
  ∀ s : State, hostOpen s .device = true →
    (∀ b, bayUp s b = true → s.mgmt.rst = 0 →
      ∃ t, exec (.bayReset b) s = .next t ∧ t.mgmt.rst = (1 : BitVec 19) <<< b.val ∧ t.mgmt.rstTick = s.tick ∧
        (∀ g, bayOf g = b → (s.chan g).force.switch = .on →
          (t.chan g).force.switch = .closing s.tick ∧ (t.chan g).force.closeCause = 0) ∧
        ∀ g, bayOf g ≠ b → t.chan g = s.chan g) ∧
    (∀ b, bayUp s b = false →
      ∃ t, exec (.bayReset b) s = .next t ∧ ReportsOnly s t ∧ evtOn t .device evtResetDone) ∧
    (s.mgmt.rst = 0 →
      (domUp s 3 = true → ∃ t, exec .coreReset s = .next t ∧ t.mgmt.rst = 0x10000 ∧ t.mgmt.rstTick = s.tick ∧
        t = { s with mgmt := t.mgmt }) ∧
      (domUp s 2 = true → ∃ t, exec .memoryReset s = .next t ∧ t.mgmt.rst = 0x20000 ∧ t.mgmt.rstTick = s.tick ∧
        t = { s with mgmt := t.mgmt }) ∧
      (domUp s 1 = true → ∃ t, exec .dmaReset s = .next t ∧ t.mgmt.rst = 0x40000 ∧ t.mgmt.rstTick = s.tick ∧
        t = { s with mgmt := t.mgmt })) ∧
    (s.mgmt.rst = 0x40000 → onFrame s = true → s.mgmt.rstTick + 16 ≤ s.tick → s.tick < s.mgmt.rstTick + 96 →
      domUp s 1 = true →
      ∃ t, exec .resetDone s = .next t ∧ t.mgmt.rst = 0 ∧ evtOn t .device evtResetDone ∧
        t.host.dma = HostLink.reset.dma ∧ (∀ i, t.page (.dma i) = PageHdr.reset (vecReset (.dma i))) ∧
        t.chans = s.chans ∧ t.bays = s.bays ∧ t.transom.raised = s.transom.raised) ∧
    ∀ b : BayNo, s.mgmt.rst = (1 : BitVec 19) <<< b.val → onFrame s = true → s.mgmt.rstTick + 16 ≤ s.tick →
      s.tick < s.mgmt.rstTick + 96 → bayUp s b = true →
      ∃ t, exec .resetDone s = .next t ∧ t.mgmt.rst = 0 ∧ evtOn t .device evtResetDone ∧
        t.bay b = { Bay.reset with speedFrom := s.tick } ∧
        (∀ g, bayOf g = b → (t.chan g).force = Chan.reset.force ∧ (t.chan g).prog = Chan.reset.prog ∧
          (t.chan g).lintel = (if domUp s 3 then 0xFFFF else 12288) ∧
          t.page (.channel g) = PageHdr.reset (vecReset (.channel g))) ∧
        ∀ g, bayOf g ≠ b → t.chan g = s.chan g

/-! ## Power and boot (chapter 18) -/

/-- The domain sequencer: a write of DEV_PD_CTL queues every domain that differs; one domain switches at a time;
isolation is released at the first frame boundary at least 1,600 ticks after a switch-on begins; UP becomes 0 as a
switch-off begins, the state of a bay is lost 32 ticks later and the switch-off is over after 1,600 (R443, R445 to
R447). Model's choices that it rests on: log entries 108, 109. -/
def Obligations.DomainSwitching : Prop :=
  ∀ s : State, s.power.powered = true →
    (∀ w, hostOpen s .device = true → ∃ t, exec (.pdCtlWrite w) s = .next t ∧ t = { s with power := t.power } ∧
      t.power.ctl = (w.extractLsb' 0 20 ||| 3) ∧ t.power.up = s.power.up ∧ t.power.current = s.power.current ∧
      ∀ d : Fin 20, d ∈ t.power.queue ↔ 2 ≤ d.val ∧ t.power.ctl.getLsbD d.val ≠ domOn s.power d) ∧
    (∀ d rest, s.locked = true → s.power.current = none → s.power.queueTick = s.tick → s.power.queue = d :: rest →
      (s.power.ctl.getLsbD d.val = true →
        ∃ t, exec .pdSwitchOnStart s = .next t ∧ t = { s with power := t.power } ∧ t.power.up = s.power.up ∧
          (d.val < 4 ∨ s.power.vana = true →
            t.power.current = some (d, true, s.tick) ∧ t.power.queue = rest ∧ t.power.held = false) ∧
          (4 ≤ d.val → s.power.vana = false →
            t.power.current = none ∧ t.power.queue = d :: rest ∧ t.power.held = true)) ∧
      (s.power.ctl.getLsbD d.val = false →
        ∃ t, exec .pdSwitchOffStart s = .next t ∧ t.power.current = some (d, false, s.tick) ∧ t.power.queue = rest ∧
          t.power.up = s.power.up &&& ~~~((1 : BitVec 20) <<< d.val) ∧ t.tick = s.tick ∧ t.time = s.time)) ∧
    (∀ d t0, s.power.current = some (d, true, t0) → s.power.bootState = 5 → pageUp s .device = true →
      onFrame s = true → t0 + 1600 ≤ s.tick → s.tick < t0 + 1680 →
      ∃ t, exec .pdDone s = .next t ∧ t.power.current = none ∧ domUp t d = true ∧ evtOn t .device evtPdDone ∧
        t.power.queueTick = s.tick ∧ (∀ c : Fin 20, c ≠ d → t.power.up.getLsbD c.val = s.power.up.getLsbD c.val) ∧
        (∀ b, domainBay d = some b → ∀ g, bayOf g = b → (t.chan g).force = Chan.reset.force) ∧
        ∀ g, (∀ b, domainBay d = some b → bayOf g ≠ b) →
          (t.chan g).force = (s.chan g).force ∧ (t.chan g).prog = (s.chan g).prog) ∧
    (∀ (b : BayNo) t0, s.power.current = some (bayDomain b, false, t0) → s.tick = t0 + 32 → s.power.opened = false →
      ∃ t, exec .pdPowerOpen s = .next t ∧ t.power = { s.power with opened := true } ∧
        t.bay b = { Bay.reset with speedFrom := s.tick } ∧
        (∀ g, bayOf g = b → (t.chan g).force = Chan.reset.force) ∧ ∀ g, bayOf g ≠ b → t.chan g = s.chan g) ∧
    ∀ d t0, s.power.current = some (d, false, t0) → s.tick = t0 + 1600 → s.power.bootState = 5 →
      pageUp s .device = true →
      ∃ t, exec .pdSwitchOffDone s = .next t ∧ t.power = { s.power with current := none, queueTick := s.tick } ∧
        evtOn t .device evtPdDone ∧ t.chans = s.chans ∧ t.bays = s.bays

/-- Power-up and boot: the device leaves power-up reset with its straps and flash, and begins discovery; the lock of
the timebase begins system time at 0; without a valid record every domain is requested and BOOT_DONE is set; with one
its PD_INIT and preload entries are taken; a power-up reset returns every domain to its reset state (R441, R442, R450
to R454, R408). Supplies: a supply that leaves its range clears its bit of DEV_SUPPLY and sets SUPPLY, and VIO puts
the device in power-up reset; a supply that returns sets its bit (R443). Model's choices that it rests on: log entries
6, 110, 111. -/
def Obligations.BootAndSupplies : Prop :=
  (∀ s : State,
    (∀ x f, (Instr.devicePowerUp x f).wf = true → s.power.powered = false → s.power.vio = true →
      ∃ t, exec (.devicePowerUp x f) s = .next t ∧ t.power = { s.power with powered := true, bootState := 1 } ∧
        t.ndolek = { s.ndolek with straps := x } ∧ t.flash.params = f ∧ t.flash.bytes = s.flash.bytes ∧
        t.chans = s.chans ∧ t.pages = s.pages) ∧
    (s.power.powered = true →
      (∃ t, exec .powerUpReset s = .next t ∧ t.power.powered = false ∧ t.locked = false ∧ t.chans = State.reset.chans ∧
        t.pages = State.reset.pages ∧ t.bays = State.reset.bays ∧ t.mgmt = State.reset.mgmt ∧
        (s.flash.use = .free ∨ s.flash.use = .boot → t.flash.bytes = s.flash.bytes) ∧ t.power.vio = s.power.vio) ∧
      (s.locked = false → s.power.bootState ≠ 3 →
        ∃ t, exec .timebaseLock s = .next t ∧ t.locked = true ∧ t.tick = 0 ∧ t.time = 0 ∧ t.power = s.power ∧
          t.chans = s.chans ∧ t.ndolek.state = if s.ndolek.straps.root then .root else s.ndolek.state) ∧
      (s.power.bootState = 1 → pageUp s .device = true →
        (s.flash.params = none →
          ∃ t, exec .bootRecordRead s = .next t ∧ t.power.bootState = 5 ∧ t.power.bootFlash = false ∧
            t.power.bootDefault = true ∧ t.power.ctl = 0xFFFFF ∧ evtOn t .device evtBootDone ∧ t.chans = s.chans) ∧
        (s.flash.params.isSome = true → bootValid s.flash = false →
          ∃ t, exec .bootRecordRead s = .next t ∧ t.power.bootState = 5 ∧ t.power.bootFlash = true ∧
            t.power.bootDefault = true ∧ t.power.ctl = 0xFFFFF ∧ evtOn t .device evtBootDone) ∧
        (s.flash.params.isSome = true → bootValid s.flash = true → s.locked = false →
          ∃ t, exec .bootRecordRead s = .next t ∧ t.power.bootState = 3 ∧ t.power.bootFlash = true ∧
            t.power.pdInit = (BitVec.ofNat 20 (flashNat s.flash 8 4) ||| 3) ∧
            t.power.preload = bootEntries s.flash ∧ t.chans = s.chans))) ∧
    ∀ a w e rest, s.power.bootState = 4 → s.power.waitCommit = none → pageUp s .device = true →
      s.power.preload = (a, w) :: e :: rest →
      ∃ t, exec .preloadEntry s = .next t ∧ t.power.preload = e :: rest ∧ t.power.bootState = 4 ∧
        t.tick = s.tick ∧ t.time = s.time) ∧
  ∀ s : State,
    (s.power.powered = true → pageUp s .device = true →
      (s.power.vio = true → ∃ t, exec (.supply .vio) s = .next t ∧ t.power.powered = false ∧ t.power.vio = false ∧
        t.chans = State.reset.chans ∧ t.pages = State.reset.pages ∧
        (s.flash.use = .free ∨ s.flash.use = .boot → t.flash.bytes = s.flash.bytes)) ∧
      (s.power.vcore = true → ∃ t, exec (.supply .vcore) s = .next t ∧ t.power = { s.power with vcore := false } ∧
        evtOn t .device 7 ∧ t.chans = s.chans ∧ t.bays = s.bays) ∧
      (s.power.vddq = true → ∃ t, exec (.supply .vddq) s = .next t ∧ t.power = { s.power with vddq := false } ∧
        evtOn t .device 7 ∧ t.chans = s.chans ∧ t.bays = s.bays) ∧
      (s.power.vana = true → ∃ t, exec (.supply .vana) s = .next t ∧ t.power = { s.power with vana := false } ∧
        evtOn t .device 7)) ∧
    ∀ k, ∃ t, exec (.supplyInRange k) s = .next t ∧ supplyOk t k = true ∧
      (∀ j, j ≠ k → supplyOk t j = supplyOk s j) ∧ t.chans = s.chans ∧ t.power.rails = s.power.rails

/-- Host operations on the flash: each waits while another operation is in progress; a read fills the buffer, a
program clears bits of its bytes, an erase puts 0xFF in its unit, and no other byte of the flash changes; the end sets
FL_DONE and ERR (R455, R456). Model's choices that it rests on: log entries 112, 113. -/
def Obligations.FlashHostOperations : Prop :=
  ∀ s : State,
    (∀ c op, (c, op) ∈ [(Instr.flashRead, 0), (Instr.flashProgram, 1), (Instr.flashErase, 2)] →
      hostOpen s .device = true →
      ∃ t, exec c s = .next t ∧ t = { s with flash := t.flash } ∧ t.flash.bytes = s.flash.bytes ∧
        t.flash.ctl = setField s.flash.ctl 0 2 op ∧
        (s.flash.use = .free → t.flash.use = .host (setField s.flash.ctl 0 2 op) s.flash.addr) ∧
        (s.flash.use ≠ .free → t.flash.use = s.flash.use ∧
          t.flash.queue = s.flash.queue ++ [.host (setField s.flash.ctl 0 2 op) s.flash.addr])) ∧
    ∀ ctl addr, s.flash.use = .host ctl addr → s.flash.queue = [] → CanonicalStores s → pageUp s .device = true →
      (flBad s.flash ctl addr = false → addr.toNat + flLen ctl ≤ flashSize s.flash →
        ∃ t, exec (.flDone false) s = .next t ∧ t.flash.use = .free ∧ t.flash.err = false ∧ evtOn t .device 9 ∧
          (field ctl 0 2 = 0 → t.flash.bytes = s.flash.bytes ∧
            ∀ i : Fin 256, i.val < flLen ctl → t.flash.buf[i] = flashByte s.flash (addr.toNat + i.val)) ∧
          (field ctl 0 2 = 1 → t.flash.buf = s.flash.buf ∧ ∀ a, flashByte t.flash a =
            if h : addr.toNat ≤ a ∧ a < addr.toNat + min (flLen ctl) 256 then
              s.flash.buf[(⟨a - addr.toNat, by omega⟩ : Fin 256)] &&& flashByte s.flash a
            else flashByte s.flash a) ∧
          (field ctl 0 2 = 2 → ∀ a, flashByte t.flash a =
            if a / eraseSize s.flash ctl = addr.toNat / eraseSize s.flash ctl then 0xFF else flashByte s.flash a)) ∧
      ∃ t, exec (.flDone true) s = .next t ∧ t.flash.err = true ∧ t.flash.use = .free ∧ evtOn t .device 9 ∧
        t.chans = s.chans

/-! ## After reset -/

/-- What the spec gives the machine after reset: no domain is out of power-up reset, no shutter is closed on its load,
the force amplifier's codes are those of R88, every window is inside, no fault is logged, no folio is armed, no queue
holds anything and the host interface has no link and no bus mastering (R88, R206, R394, R441). Model's choices that
it rests on: log entries 6, 7. -/
def Obligations.ResetState : Prop :=
  State.reset.power.powered = false ∧ State.reset.locked = false ∧ State.reset.pending = [] ∧
  (∀ g, (State.reset.chan g).force.switch = .off ∧ (State.reset.chan g).force.fixed = true ∧
    (State.reset.chan g).force.spanLive = .e ∧ (State.reset.chan g).force.dacCode = 0x40000 ∧
    (State.reset.chan g).loop.mode = .idle ∧ (State.reset.chan g).prog.running = false ∧
    (State.reset.chan g).winV.latch = .inside ∧ (State.reset.chan g).winI.latch = .inside) ∧
  (∀ f, (State.reset.folio f).state = 0) ∧ State.reset.mgmt.fltSeq = 0 ∧ State.reset.mgmt.detected = [] ∧
  State.reset.host.bme = false ∧ State.reset.host.linkUp = false ∧ NothingWaits State.reset ∧
  (∀ v, State.reset.host.msix[(v : Fin 64)].masked = true) ∧ ∀ q, (State.reset.dmaQ q).state = .disabled
end

