-- ==== Sys2Proof/Laws/State.lean ====
section
/-! SUPPORT. Reading one part of the state after a change of another part, and after reset. -/

namespace Sys2Proof.Machine

/-! ## Elements of a vector -/

@[simp] theorem vset_get {α : Type} {n : Nat} (v : Vector α n) (i : Fin n) (x : α) : (vset v i x)[i] = x := by
  simp [vset]

theorem vset_get_ne {α : Type} {n : Nat} (v : Vector α n) (i j : Fin n) (x : α) (h : j ≠ i) :
    (vset v i x)[j] = v[j] := by
  have : i.val ≠ j.val := fun e => h (Fin.ext e.symm)
  simp [vset, this]

@[simp] theorem vmod_get {α : Type} {n : Nat} (v : Vector α n) (i : Fin n) (f : α → α) : (vmod v i f)[i] = f v[i] :=
  vset_get v i (f v[i])

theorem vmod_get_ne {α : Type} {n : Nat} (v : Vector α n) (i j : Fin n) (f : α → α) (h : j ≠ i) :
    (vmod v i f)[j] = v[j] := vset_get_ne v i j (f v[i]) h

/-! ## Pages -/

set_option maxRecDepth 4000 in
theorem pageIndex_inj {p q : Page} (h : pageIndex p = pageIndex q) : p = q := by
  have h' : (pageIndex p).val = (pageIndex q).val := congrArg Fin.val h
  clear h
  cases p <;> cases q <;> simp [pageIndex] at h' ⊢ <;> first | omega | exact Fin.ext h'

@[simp] theorem State.page_modPage (s : State) (p : Page) (f : PageHdr → PageHdr) :
    (s.modPage p f).page p = f (s.page p) := vmod_get s.pages (pageIndex p) f

theorem State.page_modPage_ne (s : State) (p q : Page) (f : PageHdr → PageHdr) (h : q ≠ p) :
    (s.modPage p f).page q = s.page q :=
  vmod_get_ne s.pages (pageIndex p) (pageIndex q) f fun e => h (pageIndex_inj e)

@[simp] theorem State.chan_modChan (s : State) (g : ChanNo) (f : Chan → Chan) : (s.modChan g f).chan g = f (s.chan g) :=
  vmod_get s.chans g f

theorem State.chan_modChan_ne (s : State) (g h : ChanNo) (f : Chan → Chan) (e : h ≠ g) :
    (s.modChan g f).chan h = s.chan h := vmod_get_ne s.chans g h f e

@[simp] theorem State.bay_modBay (s : State) (b : BayNo) (f : Bay → Bay) : (s.modBay b f).bay b = f (s.bay b) :=
  vmod_get s.bays b f

theorem State.bay_modBay_ne (s : State) (b c : BayNo) (f : Bay → Bay) (e : c ≠ b) : (s.modBay b f).bay c = s.bay c :=
  vmod_get_ne s.bays b c f e

@[simp] theorem State.folio_modFolio (s : State) (f : Fin 64) (h : Folio → Folio) :
    (s.modFolio f h).folio f = h (s.folio f) := vmod_get s.archive.folios f h

theorem State.folio_modFolio_ne (s : State) (f k : Fin 64) (h : Folio → Folio) (e : k ≠ f) :
    (s.modFolio f h).folio k = s.folio k := vmod_get_ne s.archive.folios f k h e

@[simp] theorem State.sub_modSub (s : State) (i : Fin 16) (f : Sub → Sub) : (s.modSub i f).sub i = f (s.sub i) :=
  vmod_get s.stk.subs i f

theorem State.sub_modSub_ne (s : State) (i j : Fin 16) (f : Sub → Sub) (e : j ≠ i) : (s.modSub i f).sub j = s.sub j :=
  vmod_get_ne s.stk.subs i j f e

@[simp] theorem State.dmaQ_modDma (s : State) (q : Fin 16) (f : DmaQ → DmaQ) : (s.modDma q f).dmaQ q = f (s.dmaQ q) :=
  vmod_get s.host.dma q f

theorem State.dmaQ_modDma_ne (s : State) (q r : Fin 16) (f : DmaQ → DmaQ) (e : r ≠ q) :
    (s.modDma q f).dmaQ r = s.dmaQ r := vmod_get_ne s.host.dma q r f e

/-! ## One lemma per field per update -/

@[simp] theorem State.modPage_pending (s : State) (p : Page) (f : PageHdr → PageHdr) :
    (s.modPage p f).pending = s.pending := rfl
@[simp] theorem State.modPage_tick (s : State) (p : Page) (f : PageHdr → PageHdr) : (s.modPage p f).tick = s.tick := rfl
@[simp] theorem State.modPage_time (s : State) (p : Page) (f : PageHdr → PageHdr) : (s.modPage p f).time = s.time := rfl
@[simp] theorem State.modPage_locked (s : State) (p : Page) (f : PageHdr → PageHdr) :
    (s.modPage p f).locked = s.locked := rfl
@[simp] theorem State.modPage_free (s : State) (p : Page) (f : PageHdr → PageHdr) : (s.modPage p f).free = s.free := rfl
@[simp] theorem State.modPage_actDepth (s : State) (p : Page) (f : PageHdr → PageHdr) :
    (s.modPage p f).actDepth = s.actDepth := rfl
@[simp] theorem State.modPage_chans (s : State) (p : Page) (f : PageHdr → PageHdr) :
    (s.modPage p f).chans = s.chans := rfl
@[simp] theorem State.modPage_bays (s : State) (p : Page) (f : PageHdr → PageHdr) : (s.modPage p f).bays = s.bays := rfl
@[simp] theorem State.modPage_transom (s : State) (p : Page) (f : PageHdr → PageHdr) :
    (s.modPage p f).transom = s.transom := rfl
@[simp] theorem State.modPage_archive (s : State) (p : Page) (f : PageHdr → PageHdr) :
    (s.modPage p f).archive = s.archive := rfl
@[simp] theorem State.modPage_stk (s : State) (p : Page) (f : PageHdr → PageHdr) : (s.modPage p f).stk = s.stk := rfl
@[simp] theorem State.modPage_host (s : State) (p : Page) (f : PageHdr → PageHdr) : (s.modPage p f).host = s.host := rfl
@[simp] theorem State.modPage_ndolek (s : State) (p : Page) (f : PageHdr → PageHdr) :
    (s.modPage p f).ndolek = s.ndolek := rfl
@[simp] theorem State.modPage_lintel (s : State) (p : Page) (f : PageHdr → PageHdr) :
    (s.modPage p f).lintel = s.lintel := rfl
@[simp] theorem State.modPage_acc (s : State) (p : Page) (f : PageHdr → PageHdr) : (s.modPage p f).acc = s.acc := rfl
@[simp] theorem State.modPage_mgmt (s : State) (p : Page) (f : PageHdr → PageHdr) : (s.modPage p f).mgmt = s.mgmt := rfl
@[simp] theorem State.modPage_flash (s : State) (p : Page) (f : PageHdr → PageHdr) :
    (s.modPage p f).flash = s.flash := rfl
@[simp] theorem State.modPage_power (s : State) (p : Page) (f : PageHdr → PageHdr) :
    (s.modPage p f).power = s.power := rfl
@[simp] theorem State.modPage_out (s : State) (p : Page) (f : PageHdr → PageHdr) : (s.modPage p f).out = s.out := rfl

@[simp] theorem State.modChan_pending (s : State) (g : ChanNo) (f : Chan → Chan) :
    (s.modChan g f).pending = s.pending := rfl
@[simp] theorem State.modChan_tick (s : State) (g : ChanNo) (f : Chan → Chan) : (s.modChan g f).tick = s.tick := rfl
@[simp] theorem State.modChan_time (s : State) (g : ChanNo) (f : Chan → Chan) : (s.modChan g f).time = s.time := rfl
@[simp] theorem State.modChan_locked (s : State) (g : ChanNo) (f : Chan → Chan) :
    (s.modChan g f).locked = s.locked := rfl
@[simp] theorem State.modChan_free (s : State) (g : ChanNo) (f : Chan → Chan) : (s.modChan g f).free = s.free := rfl
@[simp] theorem State.modChan_actDepth (s : State) (g : ChanNo) (f : Chan → Chan) :
    (s.modChan g f).actDepth = s.actDepth := rfl
@[simp] theorem State.modChan_pages (s : State) (g : ChanNo) (f : Chan → Chan) : (s.modChan g f).pages = s.pages := rfl
@[simp] theorem State.modChan_bays (s : State) (g : ChanNo) (f : Chan → Chan) : (s.modChan g f).bays = s.bays := rfl
@[simp] theorem State.modChan_transom (s : State) (g : ChanNo) (f : Chan → Chan) :
    (s.modChan g f).transom = s.transom := rfl
@[simp] theorem State.modChan_archive (s : State) (g : ChanNo) (f : Chan → Chan) :
    (s.modChan g f).archive = s.archive := rfl
@[simp] theorem State.modChan_stk (s : State) (g : ChanNo) (f : Chan → Chan) : (s.modChan g f).stk = s.stk := rfl
@[simp] theorem State.modChan_host (s : State) (g : ChanNo) (f : Chan → Chan) : (s.modChan g f).host = s.host := rfl
@[simp] theorem State.modChan_ndolek (s : State) (g : ChanNo) (f : Chan → Chan) :
    (s.modChan g f).ndolek = s.ndolek := rfl
@[simp] theorem State.modChan_lintel (s : State) (g : ChanNo) (f : Chan → Chan) :
    (s.modChan g f).lintel = s.lintel := rfl
@[simp] theorem State.modChan_acc (s : State) (g : ChanNo) (f : Chan → Chan) : (s.modChan g f).acc = s.acc := rfl
@[simp] theorem State.modChan_mgmt (s : State) (g : ChanNo) (f : Chan → Chan) : (s.modChan g f).mgmt = s.mgmt := rfl
@[simp] theorem State.modChan_flash (s : State) (g : ChanNo) (f : Chan → Chan) : (s.modChan g f).flash = s.flash := rfl
@[simp] theorem State.modChan_power (s : State) (g : ChanNo) (f : Chan → Chan) : (s.modChan g f).power = s.power := rfl
@[simp] theorem State.modChan_out (s : State) (g : ChanNo) (f : Chan → Chan) : (s.modChan g f).out = s.out := rfl

@[simp] theorem State.modBay_pending (s : State) (b : BayNo) (f : Bay → Bay) : (s.modBay b f).pending = s.pending := rfl
@[simp] theorem State.modBay_tick (s : State) (b : BayNo) (f : Bay → Bay) : (s.modBay b f).tick = s.tick := rfl
@[simp] theorem State.modBay_time (s : State) (b : BayNo) (f : Bay → Bay) : (s.modBay b f).time = s.time := rfl
@[simp] theorem State.modBay_locked (s : State) (b : BayNo) (f : Bay → Bay) : (s.modBay b f).locked = s.locked := rfl
@[simp] theorem State.modBay_free (s : State) (b : BayNo) (f : Bay → Bay) : (s.modBay b f).free = s.free := rfl
@[simp] theorem State.modBay_actDepth (s : State) (b : BayNo) (f : Bay → Bay) :
    (s.modBay b f).actDepth = s.actDepth := rfl
@[simp] theorem State.modBay_pages (s : State) (b : BayNo) (f : Bay → Bay) : (s.modBay b f).pages = s.pages := rfl
@[simp] theorem State.modBay_chans (s : State) (b : BayNo) (f : Bay → Bay) : (s.modBay b f).chans = s.chans := rfl
@[simp] theorem State.modBay_transom (s : State) (b : BayNo) (f : Bay → Bay) : (s.modBay b f).transom = s.transom := rfl
@[simp] theorem State.modBay_archive (s : State) (b : BayNo) (f : Bay → Bay) : (s.modBay b f).archive = s.archive := rfl
@[simp] theorem State.modBay_stk (s : State) (b : BayNo) (f : Bay → Bay) : (s.modBay b f).stk = s.stk := rfl
@[simp] theorem State.modBay_host (s : State) (b : BayNo) (f : Bay → Bay) : (s.modBay b f).host = s.host := rfl
@[simp] theorem State.modBay_ndolek (s : State) (b : BayNo) (f : Bay → Bay) : (s.modBay b f).ndolek = s.ndolek := rfl
@[simp] theorem State.modBay_lintel (s : State) (b : BayNo) (f : Bay → Bay) : (s.modBay b f).lintel = s.lintel := rfl
@[simp] theorem State.modBay_acc (s : State) (b : BayNo) (f : Bay → Bay) : (s.modBay b f).acc = s.acc := rfl
@[simp] theorem State.modBay_mgmt (s : State) (b : BayNo) (f : Bay → Bay) : (s.modBay b f).mgmt = s.mgmt := rfl
@[simp] theorem State.modBay_flash (s : State) (b : BayNo) (f : Bay → Bay) : (s.modBay b f).flash = s.flash := rfl
@[simp] theorem State.modBay_power (s : State) (b : BayNo) (f : Bay → Bay) : (s.modBay b f).power = s.power := rfl
@[simp] theorem State.modBay_out (s : State) (b : BayNo) (f : Bay → Bay) : (s.modBay b f).out = s.out := rfl

@[simp] theorem State.modTransom_pending (s : State) (f : Transom → Transom) :
    (s.modTransom f).pending = s.pending := rfl
@[simp] theorem State.modTransom_tick (s : State) (f : Transom → Transom) : (s.modTransom f).tick = s.tick := rfl
@[simp] theorem State.modTransom_time (s : State) (f : Transom → Transom) : (s.modTransom f).time = s.time := rfl
@[simp] theorem State.modTransom_locked (s : State) (f : Transom → Transom) : (s.modTransom f).locked = s.locked := rfl
@[simp] theorem State.modTransom_free (s : State) (f : Transom → Transom) : (s.modTransom f).free = s.free := rfl
@[simp] theorem State.modTransom_actDepth (s : State) (f : Transom → Transom) :
    (s.modTransom f).actDepth = s.actDepth := rfl
@[simp] theorem State.modTransom_pages (s : State) (f : Transom → Transom) : (s.modTransom f).pages = s.pages := rfl
@[simp] theorem State.modTransom_chans (s : State) (f : Transom → Transom) : (s.modTransom f).chans = s.chans := rfl
@[simp] theorem State.modTransom_bays (s : State) (f : Transom → Transom) : (s.modTransom f).bays = s.bays := rfl
@[simp] theorem State.modTransom_archive (s : State) (f : Transom → Transom) :
    (s.modTransom f).archive = s.archive := rfl
@[simp] theorem State.modTransom_stk (s : State) (f : Transom → Transom) : (s.modTransom f).stk = s.stk := rfl
@[simp] theorem State.modTransom_host (s : State) (f : Transom → Transom) : (s.modTransom f).host = s.host := rfl
@[simp] theorem State.modTransom_ndolek (s : State) (f : Transom → Transom) : (s.modTransom f).ndolek = s.ndolek := rfl
@[simp] theorem State.modTransom_lintel (s : State) (f : Transom → Transom) : (s.modTransom f).lintel = s.lintel := rfl
@[simp] theorem State.modTransom_acc (s : State) (f : Transom → Transom) : (s.modTransom f).acc = s.acc := rfl
@[simp] theorem State.modTransom_mgmt (s : State) (f : Transom → Transom) : (s.modTransom f).mgmt = s.mgmt := rfl
@[simp] theorem State.modTransom_flash (s : State) (f : Transom → Transom) : (s.modTransom f).flash = s.flash := rfl
@[simp] theorem State.modTransom_power (s : State) (f : Transom → Transom) : (s.modTransom f).power = s.power := rfl
@[simp] theorem State.modTransom_out (s : State) (f : Transom → Transom) : (s.modTransom f).out = s.out := rfl
@[simp] theorem State.modTransom_transom (s : State) (f : Transom → Transom) :
    (s.modTransom f).transom = f s.transom := rfl

@[simp] theorem State.modArchive_pending (s : State) (f : Archive → Archive) :
    (s.modArchive f).pending = s.pending := rfl
@[simp] theorem State.modArchive_tick (s : State) (f : Archive → Archive) : (s.modArchive f).tick = s.tick := rfl
@[simp] theorem State.modArchive_time (s : State) (f : Archive → Archive) : (s.modArchive f).time = s.time := rfl
@[simp] theorem State.modArchive_locked (s : State) (f : Archive → Archive) : (s.modArchive f).locked = s.locked := rfl
@[simp] theorem State.modArchive_free (s : State) (f : Archive → Archive) : (s.modArchive f).free = s.free := rfl
@[simp] theorem State.modArchive_actDepth (s : State) (f : Archive → Archive) :
    (s.modArchive f).actDepth = s.actDepth := rfl
@[simp] theorem State.modArchive_pages (s : State) (f : Archive → Archive) : (s.modArchive f).pages = s.pages := rfl
@[simp] theorem State.modArchive_chans (s : State) (f : Archive → Archive) : (s.modArchive f).chans = s.chans := rfl
@[simp] theorem State.modArchive_bays (s : State) (f : Archive → Archive) : (s.modArchive f).bays = s.bays := rfl
@[simp] theorem State.modArchive_transom (s : State) (f : Archive → Archive) :
    (s.modArchive f).transom = s.transom := rfl
@[simp] theorem State.modArchive_stk (s : State) (f : Archive → Archive) : (s.modArchive f).stk = s.stk := rfl
@[simp] theorem State.modArchive_host (s : State) (f : Archive → Archive) : (s.modArchive f).host = s.host := rfl
@[simp] theorem State.modArchive_ndolek (s : State) (f : Archive → Archive) : (s.modArchive f).ndolek = s.ndolek := rfl
@[simp] theorem State.modArchive_lintel (s : State) (f : Archive → Archive) : (s.modArchive f).lintel = s.lintel := rfl
@[simp] theorem State.modArchive_acc (s : State) (f : Archive → Archive) : (s.modArchive f).acc = s.acc := rfl
@[simp] theorem State.modArchive_mgmt (s : State) (f : Archive → Archive) : (s.modArchive f).mgmt = s.mgmt := rfl
@[simp] theorem State.modArchive_flash (s : State) (f : Archive → Archive) : (s.modArchive f).flash = s.flash := rfl
@[simp] theorem State.modArchive_power (s : State) (f : Archive → Archive) : (s.modArchive f).power = s.power := rfl
@[simp] theorem State.modArchive_out (s : State) (f : Archive → Archive) : (s.modArchive f).out = s.out := rfl
@[simp] theorem State.modArchive_archive (s : State) (f : Archive → Archive) :
    (s.modArchive f).archive = f s.archive := rfl

@[simp] theorem State.modStacks_pending (s : State) (f : Stacks → Stacks) : (s.modStacks f).pending = s.pending := rfl
@[simp] theorem State.modStacks_tick (s : State) (f : Stacks → Stacks) : (s.modStacks f).tick = s.tick := rfl
@[simp] theorem State.modStacks_time (s : State) (f : Stacks → Stacks) : (s.modStacks f).time = s.time := rfl
@[simp] theorem State.modStacks_locked (s : State) (f : Stacks → Stacks) : (s.modStacks f).locked = s.locked := rfl
@[simp] theorem State.modStacks_free (s : State) (f : Stacks → Stacks) : (s.modStacks f).free = s.free := rfl
@[simp] theorem State.modStacks_actDepth (s : State) (f : Stacks → Stacks) :
    (s.modStacks f).actDepth = s.actDepth := rfl
@[simp] theorem State.modStacks_pages (s : State) (f : Stacks → Stacks) : (s.modStacks f).pages = s.pages := rfl
@[simp] theorem State.modStacks_chans (s : State) (f : Stacks → Stacks) : (s.modStacks f).chans = s.chans := rfl
@[simp] theorem State.modStacks_bays (s : State) (f : Stacks → Stacks) : (s.modStacks f).bays = s.bays := rfl
@[simp] theorem State.modStacks_transom (s : State) (f : Stacks → Stacks) : (s.modStacks f).transom = s.transom := rfl
@[simp] theorem State.modStacks_archive (s : State) (f : Stacks → Stacks) : (s.modStacks f).archive = s.archive := rfl
@[simp] theorem State.modStacks_host (s : State) (f : Stacks → Stacks) : (s.modStacks f).host = s.host := rfl
@[simp] theorem State.modStacks_ndolek (s : State) (f : Stacks → Stacks) : (s.modStacks f).ndolek = s.ndolek := rfl
@[simp] theorem State.modStacks_lintel (s : State) (f : Stacks → Stacks) : (s.modStacks f).lintel = s.lintel := rfl
@[simp] theorem State.modStacks_acc (s : State) (f : Stacks → Stacks) : (s.modStacks f).acc = s.acc := rfl
@[simp] theorem State.modStacks_mgmt (s : State) (f : Stacks → Stacks) : (s.modStacks f).mgmt = s.mgmt := rfl
@[simp] theorem State.modStacks_flash (s : State) (f : Stacks → Stacks) : (s.modStacks f).flash = s.flash := rfl
@[simp] theorem State.modStacks_power (s : State) (f : Stacks → Stacks) : (s.modStacks f).power = s.power := rfl
@[simp] theorem State.modStacks_out (s : State) (f : Stacks → Stacks) : (s.modStacks f).out = s.out := rfl
@[simp] theorem State.modStacks_stk (s : State) (f : Stacks → Stacks) : (s.modStacks f).stk = f s.stk := rfl

@[simp] theorem State.modHost_pending (s : State) (f : HostLink → HostLink) : (s.modHost f).pending = s.pending := rfl
@[simp] theorem State.modHost_tick (s : State) (f : HostLink → HostLink) : (s.modHost f).tick = s.tick := rfl
@[simp] theorem State.modHost_time (s : State) (f : HostLink → HostLink) : (s.modHost f).time = s.time := rfl
@[simp] theorem State.modHost_locked (s : State) (f : HostLink → HostLink) : (s.modHost f).locked = s.locked := rfl
@[simp] theorem State.modHost_free (s : State) (f : HostLink → HostLink) : (s.modHost f).free = s.free := rfl
@[simp] theorem State.modHost_actDepth (s : State) (f : HostLink → HostLink) :
    (s.modHost f).actDepth = s.actDepth := rfl
@[simp] theorem State.modHost_pages (s : State) (f : HostLink → HostLink) : (s.modHost f).pages = s.pages := rfl
@[simp] theorem State.modHost_chans (s : State) (f : HostLink → HostLink) : (s.modHost f).chans = s.chans := rfl
@[simp] theorem State.modHost_bays (s : State) (f : HostLink → HostLink) : (s.modHost f).bays = s.bays := rfl
@[simp] theorem State.modHost_transom (s : State) (f : HostLink → HostLink) : (s.modHost f).transom = s.transom := rfl
@[simp] theorem State.modHost_archive (s : State) (f : HostLink → HostLink) : (s.modHost f).archive = s.archive := rfl
@[simp] theorem State.modHost_stk (s : State) (f : HostLink → HostLink) : (s.modHost f).stk = s.stk := rfl
@[simp] theorem State.modHost_ndolek (s : State) (f : HostLink → HostLink) : (s.modHost f).ndolek = s.ndolek := rfl
@[simp] theorem State.modHost_lintel (s : State) (f : HostLink → HostLink) : (s.modHost f).lintel = s.lintel := rfl
@[simp] theorem State.modHost_acc (s : State) (f : HostLink → HostLink) : (s.modHost f).acc = s.acc := rfl
@[simp] theorem State.modHost_mgmt (s : State) (f : HostLink → HostLink) : (s.modHost f).mgmt = s.mgmt := rfl
@[simp] theorem State.modHost_flash (s : State) (f : HostLink → HostLink) : (s.modHost f).flash = s.flash := rfl
@[simp] theorem State.modHost_power (s : State) (f : HostLink → HostLink) : (s.modHost f).power = s.power := rfl
@[simp] theorem State.modHost_out (s : State) (f : HostLink → HostLink) : (s.modHost f).out = s.out := rfl
@[simp] theorem State.modHost_host (s : State) (f : HostLink → HostLink) : (s.modHost f).host = f s.host := rfl

@[simp] theorem State.modNdk_pending (s : State) (f : Ndolek → Ndolek) : (s.modNdk f).pending = s.pending := rfl
@[simp] theorem State.modNdk_tick (s : State) (f : Ndolek → Ndolek) : (s.modNdk f).tick = s.tick := rfl
@[simp] theorem State.modNdk_time (s : State) (f : Ndolek → Ndolek) : (s.modNdk f).time = s.time := rfl
@[simp] theorem State.modNdk_locked (s : State) (f : Ndolek → Ndolek) : (s.modNdk f).locked = s.locked := rfl
@[simp] theorem State.modNdk_free (s : State) (f : Ndolek → Ndolek) : (s.modNdk f).free = s.free := rfl
@[simp] theorem State.modNdk_actDepth (s : State) (f : Ndolek → Ndolek) : (s.modNdk f).actDepth = s.actDepth := rfl
@[simp] theorem State.modNdk_pages (s : State) (f : Ndolek → Ndolek) : (s.modNdk f).pages = s.pages := rfl
@[simp] theorem State.modNdk_chans (s : State) (f : Ndolek → Ndolek) : (s.modNdk f).chans = s.chans := rfl
@[simp] theorem State.modNdk_bays (s : State) (f : Ndolek → Ndolek) : (s.modNdk f).bays = s.bays := rfl
@[simp] theorem State.modNdk_transom (s : State) (f : Ndolek → Ndolek) : (s.modNdk f).transom = s.transom := rfl
@[simp] theorem State.modNdk_archive (s : State) (f : Ndolek → Ndolek) : (s.modNdk f).archive = s.archive := rfl
@[simp] theorem State.modNdk_stk (s : State) (f : Ndolek → Ndolek) : (s.modNdk f).stk = s.stk := rfl
@[simp] theorem State.modNdk_host (s : State) (f : Ndolek → Ndolek) : (s.modNdk f).host = s.host := rfl
@[simp] theorem State.modNdk_lintel (s : State) (f : Ndolek → Ndolek) : (s.modNdk f).lintel = s.lintel := rfl
@[simp] theorem State.modNdk_acc (s : State) (f : Ndolek → Ndolek) : (s.modNdk f).acc = s.acc := rfl
@[simp] theorem State.modNdk_mgmt (s : State) (f : Ndolek → Ndolek) : (s.modNdk f).mgmt = s.mgmt := rfl
@[simp] theorem State.modNdk_flash (s : State) (f : Ndolek → Ndolek) : (s.modNdk f).flash = s.flash := rfl
@[simp] theorem State.modNdk_power (s : State) (f : Ndolek → Ndolek) : (s.modNdk f).power = s.power := rfl
@[simp] theorem State.modNdk_out (s : State) (f : Ndolek → Ndolek) : (s.modNdk f).out = s.out := rfl
@[simp] theorem State.modNdk_ndolek (s : State) (f : Ndolek → Ndolek) : (s.modNdk f).ndolek = f s.ndolek := rfl

@[simp] theorem State.modLintel_pending (s : State) (f : Lintel → Lintel) : (s.modLintel f).pending = s.pending := rfl
@[simp] theorem State.modLintel_tick (s : State) (f : Lintel → Lintel) : (s.modLintel f).tick = s.tick := rfl
@[simp] theorem State.modLintel_time (s : State) (f : Lintel → Lintel) : (s.modLintel f).time = s.time := rfl
@[simp] theorem State.modLintel_locked (s : State) (f : Lintel → Lintel) : (s.modLintel f).locked = s.locked := rfl
@[simp] theorem State.modLintel_free (s : State) (f : Lintel → Lintel) : (s.modLintel f).free = s.free := rfl
@[simp] theorem State.modLintel_actDepth (s : State) (f : Lintel → Lintel) :
    (s.modLintel f).actDepth = s.actDepth := rfl
@[simp] theorem State.modLintel_pages (s : State) (f : Lintel → Lintel) : (s.modLintel f).pages = s.pages := rfl
@[simp] theorem State.modLintel_chans (s : State) (f : Lintel → Lintel) : (s.modLintel f).chans = s.chans := rfl
@[simp] theorem State.modLintel_bays (s : State) (f : Lintel → Lintel) : (s.modLintel f).bays = s.bays := rfl
@[simp] theorem State.modLintel_transom (s : State) (f : Lintel → Lintel) : (s.modLintel f).transom = s.transom := rfl
@[simp] theorem State.modLintel_archive (s : State) (f : Lintel → Lintel) : (s.modLintel f).archive = s.archive := rfl
@[simp] theorem State.modLintel_stk (s : State) (f : Lintel → Lintel) : (s.modLintel f).stk = s.stk := rfl
@[simp] theorem State.modLintel_host (s : State) (f : Lintel → Lintel) : (s.modLintel f).host = s.host := rfl
@[simp] theorem State.modLintel_ndolek (s : State) (f : Lintel → Lintel) : (s.modLintel f).ndolek = s.ndolek := rfl
@[simp] theorem State.modLintel_acc (s : State) (f : Lintel → Lintel) : (s.modLintel f).acc = s.acc := rfl
@[simp] theorem State.modLintel_mgmt (s : State) (f : Lintel → Lintel) : (s.modLintel f).mgmt = s.mgmt := rfl
@[simp] theorem State.modLintel_flash (s : State) (f : Lintel → Lintel) : (s.modLintel f).flash = s.flash := rfl
@[simp] theorem State.modLintel_power (s : State) (f : Lintel → Lintel) : (s.modLintel f).power = s.power := rfl
@[simp] theorem State.modLintel_out (s : State) (f : Lintel → Lintel) : (s.modLintel f).out = s.out := rfl
@[simp] theorem State.modLintel_lintel (s : State) (f : Lintel → Lintel) : (s.modLintel f).lintel = f s.lintel := rfl

@[simp] theorem State.modAcc_pending (s : State) (f : Accession → Accession) : (s.modAcc f).pending = s.pending := rfl
@[simp] theorem State.modAcc_tick (s : State) (f : Accession → Accession) : (s.modAcc f).tick = s.tick := rfl
@[simp] theorem State.modAcc_time (s : State) (f : Accession → Accession) : (s.modAcc f).time = s.time := rfl
@[simp] theorem State.modAcc_locked (s : State) (f : Accession → Accession) : (s.modAcc f).locked = s.locked := rfl
@[simp] theorem State.modAcc_free (s : State) (f : Accession → Accession) : (s.modAcc f).free = s.free := rfl
@[simp] theorem State.modAcc_actDepth (s : State) (f : Accession → Accession) :
    (s.modAcc f).actDepth = s.actDepth := rfl
@[simp] theorem State.modAcc_pages (s : State) (f : Accession → Accession) : (s.modAcc f).pages = s.pages := rfl
@[simp] theorem State.modAcc_chans (s : State) (f : Accession → Accession) : (s.modAcc f).chans = s.chans := rfl
@[simp] theorem State.modAcc_bays (s : State) (f : Accession → Accession) : (s.modAcc f).bays = s.bays := rfl
@[simp] theorem State.modAcc_transom (s : State) (f : Accession → Accession) : (s.modAcc f).transom = s.transom := rfl
@[simp] theorem State.modAcc_archive (s : State) (f : Accession → Accession) : (s.modAcc f).archive = s.archive := rfl
@[simp] theorem State.modAcc_stk (s : State) (f : Accession → Accession) : (s.modAcc f).stk = s.stk := rfl
@[simp] theorem State.modAcc_host (s : State) (f : Accession → Accession) : (s.modAcc f).host = s.host := rfl
@[simp] theorem State.modAcc_ndolek (s : State) (f : Accession → Accession) : (s.modAcc f).ndolek = s.ndolek := rfl
@[simp] theorem State.modAcc_lintel (s : State) (f : Accession → Accession) : (s.modAcc f).lintel = s.lintel := rfl
@[simp] theorem State.modAcc_mgmt (s : State) (f : Accession → Accession) : (s.modAcc f).mgmt = s.mgmt := rfl
@[simp] theorem State.modAcc_flash (s : State) (f : Accession → Accession) : (s.modAcc f).flash = s.flash := rfl
@[simp] theorem State.modAcc_power (s : State) (f : Accession → Accession) : (s.modAcc f).power = s.power := rfl
@[simp] theorem State.modAcc_out (s : State) (f : Accession → Accession) : (s.modAcc f).out = s.out := rfl
@[simp] theorem State.modAcc_acc (s : State) (f : Accession → Accession) : (s.modAcc f).acc = f s.acc := rfl

@[simp] theorem State.modMgmt_pending (s : State) (f : Mgmt → Mgmt) : (s.modMgmt f).pending = s.pending := rfl
@[simp] theorem State.modMgmt_tick (s : State) (f : Mgmt → Mgmt) : (s.modMgmt f).tick = s.tick := rfl
@[simp] theorem State.modMgmt_time (s : State) (f : Mgmt → Mgmt) : (s.modMgmt f).time = s.time := rfl
@[simp] theorem State.modMgmt_locked (s : State) (f : Mgmt → Mgmt) : (s.modMgmt f).locked = s.locked := rfl
@[simp] theorem State.modMgmt_free (s : State) (f : Mgmt → Mgmt) : (s.modMgmt f).free = s.free := rfl
@[simp] theorem State.modMgmt_actDepth (s : State) (f : Mgmt → Mgmt) : (s.modMgmt f).actDepth = s.actDepth := rfl
@[simp] theorem State.modMgmt_pages (s : State) (f : Mgmt → Mgmt) : (s.modMgmt f).pages = s.pages := rfl
@[simp] theorem State.modMgmt_chans (s : State) (f : Mgmt → Mgmt) : (s.modMgmt f).chans = s.chans := rfl
@[simp] theorem State.modMgmt_bays (s : State) (f : Mgmt → Mgmt) : (s.modMgmt f).bays = s.bays := rfl
@[simp] theorem State.modMgmt_transom (s : State) (f : Mgmt → Mgmt) : (s.modMgmt f).transom = s.transom := rfl
@[simp] theorem State.modMgmt_archive (s : State) (f : Mgmt → Mgmt) : (s.modMgmt f).archive = s.archive := rfl
@[simp] theorem State.modMgmt_stk (s : State) (f : Mgmt → Mgmt) : (s.modMgmt f).stk = s.stk := rfl
@[simp] theorem State.modMgmt_host (s : State) (f : Mgmt → Mgmt) : (s.modMgmt f).host = s.host := rfl
@[simp] theorem State.modMgmt_ndolek (s : State) (f : Mgmt → Mgmt) : (s.modMgmt f).ndolek = s.ndolek := rfl
@[simp] theorem State.modMgmt_lintel (s : State) (f : Mgmt → Mgmt) : (s.modMgmt f).lintel = s.lintel := rfl
@[simp] theorem State.modMgmt_acc (s : State) (f : Mgmt → Mgmt) : (s.modMgmt f).acc = s.acc := rfl
@[simp] theorem State.modMgmt_flash (s : State) (f : Mgmt → Mgmt) : (s.modMgmt f).flash = s.flash := rfl
@[simp] theorem State.modMgmt_power (s : State) (f : Mgmt → Mgmt) : (s.modMgmt f).power = s.power := rfl
@[simp] theorem State.modMgmt_out (s : State) (f : Mgmt → Mgmt) : (s.modMgmt f).out = s.out := rfl
@[simp] theorem State.modMgmt_mgmt (s : State) (f : Mgmt → Mgmt) : (s.modMgmt f).mgmt = f s.mgmt := rfl

@[simp] theorem State.modFlash_pending (s : State) (f : Flash → Flash) : (s.modFlash f).pending = s.pending := rfl
@[simp] theorem State.modFlash_tick (s : State) (f : Flash → Flash) : (s.modFlash f).tick = s.tick := rfl
@[simp] theorem State.modFlash_time (s : State) (f : Flash → Flash) : (s.modFlash f).time = s.time := rfl
@[simp] theorem State.modFlash_locked (s : State) (f : Flash → Flash) : (s.modFlash f).locked = s.locked := rfl
@[simp] theorem State.modFlash_free (s : State) (f : Flash → Flash) : (s.modFlash f).free = s.free := rfl
@[simp] theorem State.modFlash_actDepth (s : State) (f : Flash → Flash) : (s.modFlash f).actDepth = s.actDepth := rfl
@[simp] theorem State.modFlash_pages (s : State) (f : Flash → Flash) : (s.modFlash f).pages = s.pages := rfl
@[simp] theorem State.modFlash_chans (s : State) (f : Flash → Flash) : (s.modFlash f).chans = s.chans := rfl
@[simp] theorem State.modFlash_bays (s : State) (f : Flash → Flash) : (s.modFlash f).bays = s.bays := rfl
@[simp] theorem State.modFlash_transom (s : State) (f : Flash → Flash) : (s.modFlash f).transom = s.transom := rfl
@[simp] theorem State.modFlash_archive (s : State) (f : Flash → Flash) : (s.modFlash f).archive = s.archive := rfl
@[simp] theorem State.modFlash_stk (s : State) (f : Flash → Flash) : (s.modFlash f).stk = s.stk := rfl
@[simp] theorem State.modFlash_host (s : State) (f : Flash → Flash) : (s.modFlash f).host = s.host := rfl
@[simp] theorem State.modFlash_ndolek (s : State) (f : Flash → Flash) : (s.modFlash f).ndolek = s.ndolek := rfl
@[simp] theorem State.modFlash_lintel (s : State) (f : Flash → Flash) : (s.modFlash f).lintel = s.lintel := rfl
@[simp] theorem State.modFlash_acc (s : State) (f : Flash → Flash) : (s.modFlash f).acc = s.acc := rfl
@[simp] theorem State.modFlash_mgmt (s : State) (f : Flash → Flash) : (s.modFlash f).mgmt = s.mgmt := rfl
@[simp] theorem State.modFlash_power (s : State) (f : Flash → Flash) : (s.modFlash f).power = s.power := rfl
@[simp] theorem State.modFlash_out (s : State) (f : Flash → Flash) : (s.modFlash f).out = s.out := rfl
@[simp] theorem State.modFlash_flash (s : State) (f : Flash → Flash) : (s.modFlash f).flash = f s.flash := rfl

@[simp] theorem State.modPower_pending (s : State) (f : Power → Power) : (s.modPower f).pending = s.pending := rfl
@[simp] theorem State.modPower_tick (s : State) (f : Power → Power) : (s.modPower f).tick = s.tick := rfl
@[simp] theorem State.modPower_time (s : State) (f : Power → Power) : (s.modPower f).time = s.time := rfl
@[simp] theorem State.modPower_locked (s : State) (f : Power → Power) : (s.modPower f).locked = s.locked := rfl
@[simp] theorem State.modPower_free (s : State) (f : Power → Power) : (s.modPower f).free = s.free := rfl
@[simp] theorem State.modPower_actDepth (s : State) (f : Power → Power) : (s.modPower f).actDepth = s.actDepth := rfl
@[simp] theorem State.modPower_pages (s : State) (f : Power → Power) : (s.modPower f).pages = s.pages := rfl
@[simp] theorem State.modPower_chans (s : State) (f : Power → Power) : (s.modPower f).chans = s.chans := rfl
@[simp] theorem State.modPower_bays (s : State) (f : Power → Power) : (s.modPower f).bays = s.bays := rfl
@[simp] theorem State.modPower_transom (s : State) (f : Power → Power) : (s.modPower f).transom = s.transom := rfl
@[simp] theorem State.modPower_archive (s : State) (f : Power → Power) : (s.modPower f).archive = s.archive := rfl
@[simp] theorem State.modPower_stk (s : State) (f : Power → Power) : (s.modPower f).stk = s.stk := rfl
@[simp] theorem State.modPower_host (s : State) (f : Power → Power) : (s.modPower f).host = s.host := rfl
@[simp] theorem State.modPower_ndolek (s : State) (f : Power → Power) : (s.modPower f).ndolek = s.ndolek := rfl
@[simp] theorem State.modPower_lintel (s : State) (f : Power → Power) : (s.modPower f).lintel = s.lintel := rfl
@[simp] theorem State.modPower_acc (s : State) (f : Power → Power) : (s.modPower f).acc = s.acc := rfl
@[simp] theorem State.modPower_mgmt (s : State) (f : Power → Power) : (s.modPower f).mgmt = s.mgmt := rfl
@[simp] theorem State.modPower_flash (s : State) (f : Power → Power) : (s.modPower f).flash = s.flash := rfl
@[simp] theorem State.modPower_out (s : State) (f : Power → Power) : (s.modPower f).out = s.out := rfl
@[simp] theorem State.modPower_power (s : State) (f : Power → Power) : (s.modPower f).power = f s.power := rfl

@[simp] theorem State.modOut_pending (s : State) (f : Out → Out) : (s.modOut f).pending = s.pending := rfl
@[simp] theorem State.modOut_tick (s : State) (f : Out → Out) : (s.modOut f).tick = s.tick := rfl
@[simp] theorem State.modOut_time (s : State) (f : Out → Out) : (s.modOut f).time = s.time := rfl
@[simp] theorem State.modOut_locked (s : State) (f : Out → Out) : (s.modOut f).locked = s.locked := rfl
@[simp] theorem State.modOut_free (s : State) (f : Out → Out) : (s.modOut f).free = s.free := rfl
@[simp] theorem State.modOut_actDepth (s : State) (f : Out → Out) : (s.modOut f).actDepth = s.actDepth := rfl
@[simp] theorem State.modOut_pages (s : State) (f : Out → Out) : (s.modOut f).pages = s.pages := rfl
@[simp] theorem State.modOut_chans (s : State) (f : Out → Out) : (s.modOut f).chans = s.chans := rfl
@[simp] theorem State.modOut_bays (s : State) (f : Out → Out) : (s.modOut f).bays = s.bays := rfl
@[simp] theorem State.modOut_transom (s : State) (f : Out → Out) : (s.modOut f).transom = s.transom := rfl
@[simp] theorem State.modOut_archive (s : State) (f : Out → Out) : (s.modOut f).archive = s.archive := rfl
@[simp] theorem State.modOut_stk (s : State) (f : Out → Out) : (s.modOut f).stk = s.stk := rfl
@[simp] theorem State.modOut_host (s : State) (f : Out → Out) : (s.modOut f).host = s.host := rfl
@[simp] theorem State.modOut_ndolek (s : State) (f : Out → Out) : (s.modOut f).ndolek = s.ndolek := rfl
@[simp] theorem State.modOut_lintel (s : State) (f : Out → Out) : (s.modOut f).lintel = s.lintel := rfl
@[simp] theorem State.modOut_acc (s : State) (f : Out → Out) : (s.modOut f).acc = s.acc := rfl
@[simp] theorem State.modOut_mgmt (s : State) (f : Out → Out) : (s.modOut f).mgmt = s.mgmt := rfl
@[simp] theorem State.modOut_flash (s : State) (f : Out → Out) : (s.modOut f).flash = s.flash := rfl
@[simp] theorem State.modOut_power (s : State) (f : Out → Out) : (s.modOut f).power = s.power := rfl
@[simp] theorem State.modOut_out (s : State) (f : Out → Out) : (s.modOut f).out = f s.out := rfl

/-! ## Changes of a part of a channel, of a bay or of a block are changes of the whole -/

@[simp] theorem State.modForce_eq (s : State) (g : ChanNo) (f : Force → Force) : s.modForce g f =
    s.modChan g fun c => { c with force := f c.force } := rfl
@[simp] theorem State.modProg_eq (s : State) (g : ChanNo) (f : Prog → Prog) : s.modProg g f =
    s.modChan g fun c => { c with prog := f c.prog } := rfl
@[simp] theorem State.modLoop_eq (s : State) (g : ChanNo) (f : Loop → Loop) : s.modLoop g f =
    s.modChan g fun c => { c with loop := f c.loop } := rfl
@[simp] theorem State.modMeas_eq (s : State) (g : ChanNo) (f : Meas → Meas) : s.modMeas g f =
    s.modChan g fun c => { c with meas := f c.meas } := rfl
@[simp] theorem State.modRes_eq (s : State) (g : ChanNo) (f : Res → Res) : s.modRes g f =
    s.modChan g fun c => { c with res := f c.res } := rfl
@[simp] theorem State.modSash_eq (s : State) (b : BayNo) (f : SashEng → SashEng) : s.modSash b f =
    s.modBay b fun x => { x with sash := f x.sash } := rfl
@[simp] theorem State.modShelf_eq (s : State) (b : BayNo) (f : ShelfQ → ShelfQ) : s.modShelf b f =
    s.modBay b fun x => { x with shelf := f x.shelf } := rfl
@[simp] theorem State.modCat_eq (s : State) (b : BayNo) (f : Cat → Cat) : s.modCat b f =
    s.modBay b fun x => { x with cat := f x.cat } := rfl
@[simp] theorem State.modFolio_eq (s : State) (f : Fin 64) (h : Folio → Folio) : s.modFolio f h =
    s.modArchive fun a => { a with folios := vmod a.folios f h } := rfl
@[simp] theorem State.modSub_eq (s : State) (i : Fin 16) (f : Sub → Sub) : s.modSub i f =
    s.modStacks fun k => { k with subs := vmod k.subs i f } := rfl
@[simp] theorem State.modDma_eq (s : State) (q : Fin 16) (f : DmaQ → DmaQ) : s.modDma q f =
    s.modHost fun h => { h with dma := vmod h.dma q f } := rfl

/-! ## Readers depend on one field only -/

@[simp] theorem State.page_modChan (s : State) (g : ChanNo) (f : Chan → Chan) (p : Page) :
    (s.modChan g f).page p = s.page p := rfl
@[simp] theorem State.page_modBay (s : State) (b : BayNo) (f : Bay → Bay) (p : Page) :
    (s.modBay b f).page p = s.page p := rfl
@[simp] theorem State.page_modTransom (s : State) (f : Transom → Transom) (p : Page) :
    (s.modTransom f).page p = s.page p := rfl
@[simp] theorem State.page_modArchive (s : State) (f : Archive → Archive) (p : Page) :
    (s.modArchive f).page p = s.page p := rfl
@[simp] theorem State.page_modStacks (s : State) (f : Stacks → Stacks) (p : Page) :
    (s.modStacks f).page p = s.page p := rfl
@[simp] theorem State.page_modHost (s : State) (f : HostLink → HostLink) (p : Page) :
    (s.modHost f).page p = s.page p := rfl
@[simp] theorem State.page_modNdk (s : State) (f : Ndolek → Ndolek) (p : Page) : (s.modNdk f).page p = s.page p := rfl
@[simp] theorem State.page_modLintel (s : State) (f : Lintel → Lintel) (p : Page) :
    (s.modLintel f).page p = s.page p := rfl
@[simp] theorem State.page_modAcc (s : State) (f : Accession → Accession) (p : Page) :
    (s.modAcc f).page p = s.page p := rfl
@[simp] theorem State.page_modMgmt (s : State) (f : Mgmt → Mgmt) (p : Page) : (s.modMgmt f).page p = s.page p := rfl
@[simp] theorem State.page_modFlash (s : State) (f : Flash → Flash) (p : Page) : (s.modFlash f).page p = s.page p := rfl
@[simp] theorem State.page_modPower (s : State) (f : Power → Power) (p : Page) : (s.modPower f).page p = s.page p := rfl
@[simp] theorem State.page_modOut (s : State) (f : Out → Out) (p : Page) : (s.modOut f).page p = s.page p := rfl

@[simp] theorem State.chan_modPage (s : State) (p : Page) (f : PageHdr → PageHdr) (g : ChanNo) :
    (s.modPage p f).chan g = s.chan g := rfl
@[simp] theorem State.chan_modBay (s : State) (b : BayNo) (f : Bay → Bay) (g : ChanNo) :
    (s.modBay b f).chan g = s.chan g := rfl
@[simp] theorem State.chan_modTransom (s : State) (f : Transom → Transom) (g : ChanNo) :
    (s.modTransom f).chan g = s.chan g := rfl
@[simp] theorem State.chan_modArchive (s : State) (f : Archive → Archive) (g : ChanNo) :
    (s.modArchive f).chan g = s.chan g := rfl
@[simp] theorem State.chan_modStacks (s : State) (f : Stacks → Stacks) (g : ChanNo) :
    (s.modStacks f).chan g = s.chan g := rfl
@[simp] theorem State.chan_modHost (s : State) (f : HostLink → HostLink) (g : ChanNo) :
    (s.modHost f).chan g = s.chan g := rfl
@[simp] theorem State.chan_modNdk (s : State) (f : Ndolek → Ndolek) (g : ChanNo) : (s.modNdk f).chan g = s.chan g := rfl
@[simp] theorem State.chan_modLintel (s : State) (f : Lintel → Lintel) (g : ChanNo) :
    (s.modLintel f).chan g = s.chan g := rfl
@[simp] theorem State.chan_modAcc (s : State) (f : Accession → Accession) (g : ChanNo) :
    (s.modAcc f).chan g = s.chan g := rfl
@[simp] theorem State.chan_modMgmt (s : State) (f : Mgmt → Mgmt) (g : ChanNo) : (s.modMgmt f).chan g = s.chan g := rfl
@[simp] theorem State.chan_modFlash (s : State) (f : Flash → Flash) (g : ChanNo) :
    (s.modFlash f).chan g = s.chan g := rfl
@[simp] theorem State.chan_modPower (s : State) (f : Power → Power) (g : ChanNo) :
    (s.modPower f).chan g = s.chan g := rfl
@[simp] theorem State.chan_modOut (s : State) (f : Out → Out) (g : ChanNo) : (s.modOut f).chan g = s.chan g := rfl

@[simp] theorem State.bay_modPage (s : State) (p : Page) (f : PageHdr → PageHdr) (b : BayNo) :
    (s.modPage p f).bay b = s.bay b := rfl
@[simp] theorem State.bay_modChan (s : State) (g : ChanNo) (f : Chan → Chan) (b : BayNo) :
    (s.modChan g f).bay b = s.bay b := rfl
@[simp] theorem State.bay_modTransom (s : State) (f : Transom → Transom) (b : BayNo) :
    (s.modTransom f).bay b = s.bay b := rfl
@[simp] theorem State.bay_modArchive (s : State) (f : Archive → Archive) (b : BayNo) :
    (s.modArchive f).bay b = s.bay b := rfl
@[simp] theorem State.bay_modStacks (s : State) (f : Stacks → Stacks) (b : BayNo) :
    (s.modStacks f).bay b = s.bay b := rfl
@[simp] theorem State.bay_modHost (s : State) (f : HostLink → HostLink) (b : BayNo) :
    (s.modHost f).bay b = s.bay b := rfl
@[simp] theorem State.bay_modNdk (s : State) (f : Ndolek → Ndolek) (b : BayNo) : (s.modNdk f).bay b = s.bay b := rfl
@[simp] theorem State.bay_modLintel (s : State) (f : Lintel → Lintel) (b : BayNo) :
    (s.modLintel f).bay b = s.bay b := rfl
@[simp] theorem State.bay_modAcc (s : State) (f : Accession → Accession) (b : BayNo) :
    (s.modAcc f).bay b = s.bay b := rfl
@[simp] theorem State.bay_modMgmt (s : State) (f : Mgmt → Mgmt) (b : BayNo) : (s.modMgmt f).bay b = s.bay b := rfl
@[simp] theorem State.bay_modFlash (s : State) (f : Flash → Flash) (b : BayNo) : (s.modFlash f).bay b = s.bay b := rfl
@[simp] theorem State.bay_modPower (s : State) (f : Power → Power) (b : BayNo) : (s.modPower f).bay b = s.bay b := rfl
@[simp] theorem State.bay_modOut (s : State) (f : Out → Out) (b : BayNo) : (s.modOut f).bay b = s.bay b := rfl

@[simp] theorem State.folio_modPage (s : State) (p : Page) (k : PageHdr → PageHdr) (f : Fin 64) :
    (s.modPage p k).folio f = s.folio f := rfl
@[simp] theorem State.folio_modChan (s : State) (g : ChanNo) (k : Chan → Chan) (f : Fin 64) :
    (s.modChan g k).folio f = s.folio f := rfl
@[simp] theorem State.folio_modBay (s : State) (b : BayNo) (k : Bay → Bay) (f : Fin 64) :
    (s.modBay b k).folio f = s.folio f := rfl
@[simp] theorem State.folio_modTransom (s : State) (k : Transom → Transom) (f : Fin 64) :
    (s.modTransom k).folio f = s.folio f := rfl
@[simp] theorem State.folio_modStacks (s : State) (k : Stacks → Stacks) (f : Fin 64) :
    (s.modStacks k).folio f = s.folio f := rfl
@[simp] theorem State.folio_modHost (s : State) (k : HostLink → HostLink) (f : Fin 64) :
    (s.modHost k).folio f = s.folio f := rfl
@[simp] theorem State.folio_modNdk (s : State) (k : Ndolek → Ndolek) (f : Fin 64) :
    (s.modNdk k).folio f = s.folio f := rfl
@[simp] theorem State.folio_modLintel (s : State) (k : Lintel → Lintel) (f : Fin 64) :
    (s.modLintel k).folio f = s.folio f := rfl
@[simp] theorem State.folio_modAcc (s : State) (k : Accession → Accession) (f : Fin 64) :
    (s.modAcc k).folio f = s.folio f := rfl
@[simp] theorem State.folio_modMgmt (s : State) (k : Mgmt → Mgmt) (f : Fin 64) :
    (s.modMgmt k).folio f = s.folio f := rfl
@[simp] theorem State.folio_modFlash (s : State) (k : Flash → Flash) (f : Fin 64) :
    (s.modFlash k).folio f = s.folio f := rfl
@[simp] theorem State.folio_modPower (s : State) (k : Power → Power) (f : Fin 64) :
    (s.modPower k).folio f = s.folio f := rfl
@[simp] theorem State.folio_modOut (s : State) (k : Out → Out) (f : Fin 64) : (s.modOut k).folio f = s.folio f := rfl

@[simp] theorem State.sub_modPage (s : State) (p : Page) (f : PageHdr → PageHdr) (i : Fin 16) :
    (s.modPage p f).sub i = s.sub i := rfl
@[simp] theorem State.sub_modChan (s : State) (g : ChanNo) (f : Chan → Chan) (i : Fin 16) :
    (s.modChan g f).sub i = s.sub i := rfl
@[simp] theorem State.sub_modBay (s : State) (b : BayNo) (f : Bay → Bay) (i : Fin 16) :
    (s.modBay b f).sub i = s.sub i := rfl
@[simp] theorem State.sub_modTransom (s : State) (f : Transom → Transom) (i : Fin 16) :
    (s.modTransom f).sub i = s.sub i := rfl
@[simp] theorem State.sub_modArchive (s : State) (f : Archive → Archive) (i : Fin 16) :
    (s.modArchive f).sub i = s.sub i := rfl
@[simp] theorem State.sub_modHost (s : State) (f : HostLink → HostLink) (i : Fin 16) :
    (s.modHost f).sub i = s.sub i := rfl
@[simp] theorem State.sub_modNdk (s : State) (f : Ndolek → Ndolek) (i : Fin 16) : (s.modNdk f).sub i = s.sub i := rfl
@[simp] theorem State.sub_modLintel (s : State) (f : Lintel → Lintel) (i : Fin 16) :
    (s.modLintel f).sub i = s.sub i := rfl
@[simp] theorem State.sub_modAcc (s : State) (f : Accession → Accession) (i : Fin 16) :
    (s.modAcc f).sub i = s.sub i := rfl
@[simp] theorem State.sub_modMgmt (s : State) (f : Mgmt → Mgmt) (i : Fin 16) : (s.modMgmt f).sub i = s.sub i := rfl
@[simp] theorem State.sub_modFlash (s : State) (f : Flash → Flash) (i : Fin 16) : (s.modFlash f).sub i = s.sub i := rfl
@[simp] theorem State.sub_modPower (s : State) (f : Power → Power) (i : Fin 16) : (s.modPower f).sub i = s.sub i := rfl
@[simp] theorem State.sub_modOut (s : State) (f : Out → Out) (i : Fin 16) : (s.modOut f).sub i = s.sub i := rfl

@[simp] theorem State.dmaQ_modPage (s : State) (p : Page) (f : PageHdr → PageHdr) (q : Fin 16) :
    (s.modPage p f).dmaQ q = s.dmaQ q := rfl
@[simp] theorem State.dmaQ_modChan (s : State) (g : ChanNo) (f : Chan → Chan) (q : Fin 16) :
    (s.modChan g f).dmaQ q = s.dmaQ q := rfl
@[simp] theorem State.dmaQ_modBay (s : State) (b : BayNo) (f : Bay → Bay) (q : Fin 16) :
    (s.modBay b f).dmaQ q = s.dmaQ q := rfl
@[simp] theorem State.dmaQ_modTransom (s : State) (f : Transom → Transom) (q : Fin 16) :
    (s.modTransom f).dmaQ q = s.dmaQ q := rfl
@[simp] theorem State.dmaQ_modArchive (s : State) (f : Archive → Archive) (q : Fin 16) :
    (s.modArchive f).dmaQ q = s.dmaQ q := rfl
@[simp] theorem State.dmaQ_modStacks (s : State) (f : Stacks → Stacks) (q : Fin 16) :
    (s.modStacks f).dmaQ q = s.dmaQ q := rfl
@[simp] theorem State.dmaQ_modNdk (s : State) (f : Ndolek → Ndolek) (q : Fin 16) : (s.modNdk f).dmaQ q = s.dmaQ q := rfl
@[simp] theorem State.dmaQ_modLintel (s : State) (f : Lintel → Lintel) (q : Fin 16) :
    (s.modLintel f).dmaQ q = s.dmaQ q := rfl
@[simp] theorem State.dmaQ_modAcc (s : State) (f : Accession → Accession) (q : Fin 16) :
    (s.modAcc f).dmaQ q = s.dmaQ q := rfl
@[simp] theorem State.dmaQ_modMgmt (s : State) (f : Mgmt → Mgmt) (q : Fin 16) : (s.modMgmt f).dmaQ q = s.dmaQ q := rfl
@[simp] theorem State.dmaQ_modFlash (s : State) (f : Flash → Flash) (q : Fin 16) :
    (s.modFlash f).dmaQ q = s.dmaQ q := rfl
@[simp] theorem State.dmaQ_modPower (s : State) (f : Power → Power) (q : Fin 16) :
    (s.modPower f).dmaQ q = s.dmaQ q := rfl
@[simp] theorem State.dmaQ_modOut (s : State) (f : Out → Out) (q : Fin 16) : (s.modOut f).dmaQ q = s.dmaQ q := rfl

/-! ## After reset -/

theorem resetPages_get (p : Page) : resetPages[pageIndex p] = PageHdr.reset (vecReset p) := by
  simp [resetPages, vecReset]

theorem reset_page (p : Page) : State.reset.page p = PageHdr.reset (vecReset p) := resetPages_get p

theorem reset_chan (g : ChanNo) : State.reset.chan g = Chan.reset := by simp [State.reset, State.chan]

theorem reset_bay (b : BayNo) : State.reset.bay b = Bay.reset := by simp [State.reset, State.bay]

end Sys2Proof.Machine
end

