-- ==== Sys2Proof/Laws/Ops.lean ====
section
/-! SUPPORT. For each shared operation, what it can do: messages, events, sources, detections, requests and loops. -/

namespace Sys2Proof.Machine

/-! ## Loops -/

@[simp] theorem State.each_nil {α : Type} (s : State) (f : α → State → State) : s.each [] f = s := rfl

@[simp] theorem State.each_cons {α : Type} (s : State) (x : α) (l : List α) (f : α → State → State) :
    s.each (x :: l) f = (f x s).each l f := rfl

/-- What every turn of a loop keeps, the loop keeps. -/
theorem State.each_keeps {α : Type} (P : State → Prop) (l : List α) (f : α → State → State) (s : State)
    (h : ∀ x ∈ l, ∀ s, P s → P (f x s)) (w : P s) : P (s.each l f) := by
  induction l generalizing s with
  | nil => exact w
  | cons x l ih =>
    exact ih (f x s) (fun y hy => h y (List.mem_cons_of_mem _ hy)) (h x List.mem_cons_self s w)

theorem mem_bayChans (b : BayNo) (g : ChanNo) : g ∈ bayChans b ↔ bayOf g = b := by
  simp only [bayChans, allFin, List.mem_map, List.mem_finRange, true_and]
  constructor
  · rintro ⟨c, rfl⟩
    simp only [bayOf, chanOf, Fin.ext_iff]
    omega
  · rintro rfl
    refine ⟨inBay g, ?_⟩
    simp only [bayOf, chanOf, inBay, Fin.ext_iff]
    omega

/-! ## Messages and events (R50 to R52, R394) -/

/-- A message called for changes at most the pending bits and the messages sent. -/
theorem callMsg_frame (s : State) (v : BitVec 6) :
    callMsg s v = { s with host := (callMsg s v).host, out := (callMsg s v).out } ∧
    (callMsg s v).host = { s.host with msix := (callMsg s v).host.msix } ∧
    (callMsg s v).out = { s.out with msgs := (callMsg s v).out.msgs } := by
  simp only [callMsg]
  split
  · exact ⟨rfl, rfl, rfl⟩
  · split <;> exact ⟨rfl, rfl, rfl⟩

@[simp] theorem callMsg_pages (s : State) (v : BitVec 6) : (callMsg s v).pages = s.pages := by
  rw [(callMsg_frame s v).1]

@[simp] theorem callMsg_page (s : State) (v : BitVec 6) (p : Page) : (callMsg s v).page p = s.page p := by
  simp [State.page]

/-- An event sets its bit, notes the bits that hardware has set in this tick, and calls for at most one message; on a
page whose domain is off it does nothing. -/
theorem setEvt_spec (s : State) (p : Page) (n : Nat) :
    (pageUp s p = false → setEvt s p n = s) ∧
    (pageUp s p = true → (setEvt s p n).page p = hdrSetEvt s.tick n (s.page p)) ∧
    (∀ q, q ≠ p → (setEvt s p n).page q = s.page q) ∧
    setEvt s p n =
      { s with pages := (setEvt s p n).pages, host := (setEvt s p n).host, out := (setEvt s p n).out } ∧
    (setEvt s p n).host = { s.host with msix := (setEvt s p n).host.msix } ∧
    (setEvt s p n).out = { s.out with msgs := (setEvt s p n).out.msgs } := by
  by_cases h : pageUp s p = true
  · have f := callMsg_frame (s.modPage p (hdrSetEvt s.tick n)) (s.page p).vec
    simp only [setEvt, h, if_true]
    split
    · refine ⟨by simp, by simp, fun q hq => ?_, ?_, ?_, ?_⟩
      · rw [callMsg_page, State.page_modPage_ne _ _ _ _ hq]
      · have e := f.1; rw [e]; rfl
      · exact f.2.1
      · exact f.2.2
    · exact ⟨by simp, by simp, fun q hq => State.page_modPage_ne _ _ _ _ hq, rfl, rfl, rfl⟩
  · simp [setEvt, h]

/-- Beside reports, an event changes nothing but its page. -/
theorem setEvt_pageFrame (s : State) (p : Page) (n : Nat) : PageFrame p s (setEvt s p n) :=
  have h := setEvt_spec s p n
  ⟨h.2.2.2.1, h.2.2.1, h.2.2.2.2.1, h.2.2.2.2.2⟩

/-- The event bit of a page that is up is 1 after it. -/
theorem setEvt_on (s : State) (p : Page) (n : Nat) (hn : n < 32) (h : pageUp s p = true) :
    evtOn (setEvt s p n) p n := by
  have e := (setEvt_spec s p n).2.1 h
  simp [evtOn, e, hdrSetEvt, bit1, hn]

section
variable (s : State) (p : Page) (n : Nat)

@[simp] theorem setEvt_pending : (setEvt s p n).pending = s.pending := by rw [(setEvt_spec s p n).2.2.2.1]
@[simp] theorem setEvt_tick : (setEvt s p n).tick = s.tick := by rw [(setEvt_spec s p n).2.2.2.1]
@[simp] theorem setEvt_time : (setEvt s p n).time = s.time := by rw [(setEvt_spec s p n).2.2.2.1]
@[simp] theorem setEvt_locked : (setEvt s p n).locked = s.locked := by rw [(setEvt_spec s p n).2.2.2.1]
@[simp] theorem setEvt_free : (setEvt s p n).free = s.free := by rw [(setEvt_spec s p n).2.2.2.1]
@[simp] theorem setEvt_actDepth : (setEvt s p n).actDepth = s.actDepth := by rw [(setEvt_spec s p n).2.2.2.1]
@[simp] theorem setEvt_chans : (setEvt s p n).chans = s.chans := by rw [(setEvt_spec s p n).2.2.2.1]
@[simp] theorem setEvt_bays : (setEvt s p n).bays = s.bays := by rw [(setEvt_spec s p n).2.2.2.1]
@[simp] theorem setEvt_transom : (setEvt s p n).transom = s.transom := by rw [(setEvt_spec s p n).2.2.2.1]
@[simp] theorem setEvt_archive : (setEvt s p n).archive = s.archive := by rw [(setEvt_spec s p n).2.2.2.1]
@[simp] theorem setEvt_stacks : (setEvt s p n).stk = s.stk := by rw [(setEvt_spec s p n).2.2.2.1]
@[simp] theorem setEvt_ndolek : (setEvt s p n).ndolek = s.ndolek := by rw [(setEvt_spec s p n).2.2.2.1]
@[simp] theorem setEvt_lintel : (setEvt s p n).lintel = s.lintel := by rw [(setEvt_spec s p n).2.2.2.1]
@[simp] theorem setEvt_acc : (setEvt s p n).acc = s.acc := by rw [(setEvt_spec s p n).2.2.2.1]
@[simp] theorem setEvt_mgmt : (setEvt s p n).mgmt = s.mgmt := by rw [(setEvt_spec s p n).2.2.2.1]
@[simp] theorem setEvt_flash : (setEvt s p n).flash = s.flash := by rw [(setEvt_spec s p n).2.2.2.1]
@[simp] theorem setEvt_power : (setEvt s p n).power = s.power := by rw [(setEvt_spec s p n).2.2.2.1]

@[simp] theorem setEvt_chan (g : ChanNo) : (setEvt s p n).chan g = s.chan g := by simp [State.chan]
@[simp] theorem setEvt_bay (b : BayNo) : (setEvt s p n).bay b = s.bay b := by simp [State.bay]
@[simp] theorem setEvt_folio (f : Fin 64) : (setEvt s p n).folio f = s.folio f := by simp [State.folio]
@[simp] theorem setEvt_sub (i : Fin 16) : (setEvt s p n).sub i = s.sub i := by simp [State.sub]

theorem setEvt_dma : (setEvt s p n).host.dma = s.host.dma := by rw [(setEvt_spec s p n).2.2.2.2.1]

/-- An event changes no live value, no draft and no value that waits. -/
theorem setEvt_stores (q : Page) :
    ((setEvt s p n).page q).live = (s.page q).live ∧ ((setEvt s p n).page q).draft = (s.page q).draft ∧
    ((setEvt s p n).page q).captured = (s.page q).captured ∧ ((setEvt s p n).page q).staged = (s.page q).staged := by
  have h := setEvt_spec s p n
  by_cases e : q = p
  · subst e
    by_cases u : pageUp s q = true
    · rw [h.2.1 u]; exact ⟨rfl, rfl, rfl, rfl⟩
    · rw [h.1 (by simpa using u)]; exact ⟨rfl, rfl, rfl, rfl⟩
  · rw [h.2.2.1 q e]; exact ⟨rfl, rfl, rfl, rfl⟩

end

/-! ## Reports only -/

theorem ReportsOnly.refl (s : State) : ReportsOnly s s :=
  ⟨rfl, fun _ => rfl, fun p => by simp, rfl, rfl, rfl, rfl⟩

theorem ReportsOnly.trans {s t u : State} (a : ReportsOnly s t) (b : ReportsOnly t u) : ReportsOnly s u where
  rest := by rw [b.rest, a.rest]
  pages := fun p => by rw [b.pages p, a.pages p]
  evt := fun p => by
    have h1 := a.evt p
    have h2 := b.evt p
    rw [← h1, BitVec.and_assoc, h2]
  host := by rw [b.host, a.host]
  transom := by rw [b.transom, a.transom]
  mgmt := by rw [b.mgmt, a.mgmt]
  out := by rw [b.out, a.out]

/-- An event is a report. -/
theorem setEvt_reports (s : State) (p : Page) (n : Nat) : ReportsOnly s (setEvt s p n) where
  rest := by
    have h := (setEvt_spec s p n).2.2.2.1
    rw [h]
  pages := fun q => by
    have h := setEvt_spec s p n
    by_cases e : q = p
    · subst e
      by_cases u : pageUp s q = true
      · rw [h.2.1 u]; rfl
      · rw [h.1 (by simpa using u)]
    · rw [h.2.2.1 q e]
  evt := fun q => by
    have h := setEvt_spec s p n
    by_cases e : q = p
    · subst e
      by_cases u : pageUp s q = true
      · rw [h.2.1 u]
        apply BitVec.eq_of_getLsbD_eq
        intro i _
        simp only [hdrSetEvt, BitVec.getLsbD_and, BitVec.getLsbD_or]
        cases (s.page q).evt.getLsbD i <;> simp
      · rw [h.1 (by simpa using u)]; simp
    · rw [h.2.2.1 q e]; simp
  host := (setEvt_spec s p n).2.2.2.2.1
  transom := by simp
  mgmt := by simp
  out := (setEvt_spec s p n).2.2.2.2.2

/-! ## Sources and detections -/

/-- A source raised is listed with its tick, while PD3 is up; nothing else changes. -/
theorem raiseAt_spec (a : Nat) (s : State) (sid : BitVec 16) :
    (domUp s 3 = true → raiseAt a s sid = s.modTransom fun x =>
      { x with raised := x.raised ++ [{ sid := sid, tick := s.tick, enterAt := a, depth := s.actDepth }] }) ∧
    (domUp s 3 = false → raiseAt a s sid = s) := by
  constructor <;> intro h <;> simp [raiseAt, h]

theorem raiseAt_reports (a : Nat) (s : State) (sid : BitVec 16) : ReportsOnly s (raiseAt a s sid) := by
  simp only [raiseAt]
  split
  · exact ⟨rfl, fun _ => rfl, fun p => by simp, rfl, rfl, rfl, rfl⟩
  · exact ReportsOnly.refl s

theorem raise_reports (s : State) (sid : BitVec 16) : ReportsOnly s (raise s sid) := raiseAt_reports _ s sid

theorem takeFree_reports (s : State) : ReportsOnly s (takeFree s) :=
  ⟨rfl, fun _ => rfl, fun p => by simp [takeFree, State.page], rfl, rfl, rfl, rfl⟩

theorem raiseAsync_reports (s : State) (sid : BitVec 16) : ReportsOnly s (raiseAsync s sid) :=
  (takeFree_reports s).trans (raiseAt_reports _ _ sid)

/-- A detection waits for the fault log with its tick. -/
theorem detectFull_reports (s : State) (p : Page) (unit code attempts cls : Nat) (a : Bool) :
    ReportsOnly s (detectFull s p unit code attempts cls a) :=
  ⟨rfl, fun _ => rfl, fun p => by simp [detectFull, State.page], rfl, rfl, rfl, rfl⟩

theorem detect_reports (s : State) (p : Page) (unit code attempts cls : Nat) :
    ReportsOnly s (detect s p unit code attempts cls) := detectFull_reports s p unit code attempts cls false

@[simp] theorem detect_stacks (s : State) (p : Page) (unit code attempts cls : Nat) :
    (detect s p unit code attempts cls).stk = s.stk := rfl

@[simp] theorem detect_pages (s : State) (p : Page) (unit code attempts cls : Nat) :
    (detect s p unit code attempts cls).pages = s.pages := rfl

@[simp] theorem detect_power (s : State) (p : Page) (unit code attempts cls : Nat) :
    (detect s p unit code attempts cls).power = s.power := rfl

/-! ## Requests (R28, R286, R431) -/

/-- A request that reaches the device is carried out where its page is open; otherwise a write is refused and an
activation dropped. A write with the link down does not arrive. -/
theorem request_spec (p : Page) (off : Nat) (v : Via) (f : State → State) (s : State) :
    (reaches v s = true → pageOpen s p = true → request p off v f s = withVia v f s) ∧
    (reaches v s = true → pageOpen s p = false → v = .write →
      request p off v f s = refuseAccess (pageBase p + off) 3 true s) ∧
    (pageOpen s p = false → ∀ d, v = .task d → request p off v f s = pdDrop s) ∧
    (reaches v s = false → request p off v f s = s) := by
  refine ⟨fun r h => by simp [request, r, h], fun r h e => ?_, fun h d e => ?_, fun r => by simp [request, r]⟩
  · subst e; simp [request, r, h]
  · subst e; simp [request, reaches, h]

/-- A change that does not look at the activation's depth is the same by any way. -/
theorem withVia_of_eq (v : Via) (f : State → State) (s : State)
    (h : f { s with actDepth := viaDepth v } = { f s with actDepth := viaDepth v }) (k : (f s).actDepth = s.actDepth) :
    withVia v f s = f s := by
  simp only [withVia, h]
  rw [← k]

/-- A refused access changes DEV_ACC and reports its event. -/
theorem refuseAccess_spec (addr cause : Nat) (w : Bool) (s : State) :
    ∃ m, refuseAccess addr cause w s = (if s.power.powered then setEvt { s with mgmt := m } .device 0 else s) ∧
      m.detected = s.mgmt.detected ∧ m.log = s.mgmt.log := by
  by_cases h : s.power.powered = true
  · simp only [refuseAccess, h, if_true]
    split
    · exact ⟨s.mgmt, rfl, rfl, rfl⟩
    · exact ⟨_, rfl, rfl, rfl⟩
  · exact ⟨s.mgmt, by simp [refuseAccess, h], rfl, rfl⟩

/-- A dropped activation counts in Transom and reports its event. -/
theorem pdDrop_spec (s : State) :
    pdDrop s = (if domUp s 3 then setEvt (s.modTransom fun x => { x with pdDrop := x.pdDrop + 1 }) .transom 4 else s) :=
  rfl

/-! ## Pairs (R54 to R58) -/

theorem pairFind_off (l : List PairSt) (off : Nat) : (pairFind l off).off = off := by
  induction l with
  | nil => rfl
  | cons x l ih =>
    simp only [pairFind]
    split
    · assumption
    · exact ih

end Sys2Proof.Machine
end

