-- ==== Sys2Proof/Laws/Sparse.lean ====
section
/-! SUPPORT. Sparse stores: every operation keeps the canonical form, a read after a write finds what was written and
every other key as before, and two stores in canonical form that read alike are equal. -/

namespace Sys2Proof.Machine

variable {α : Type}

theorem sparseWf_cons [DecidableEq α] (d : Nat → α) (k : Nat) (v : α) (l : List (Nat × α)) :
    sparseWf d ((k, v) :: l) = true ↔ v ≠ d k ∧ (∀ x ∈ l, k < x.1) ∧ sparseWf d l = true := by
  simp [sparseWf, and_assoc]

/-- A key below every listed one is not listed. -/
theorem sparseGet_below (d : Nat → α) (l : List (Nat × α)) (k : Nat) (h : ∀ x ∈ l, k < x.1) :
    sparseGet d l k = d k := by
  induction l with
  | nil => rfl
  | cons x l ih =>
    obtain ⟨o, v⟩ := x
    have h1 : k < o := h (o, v) (by simp)
    have h2 := ih fun x hx => h x (List.mem_cons_of_mem _ hx)
    simp [sparseGet, h2, Nat.ne_of_gt h1]

theorem sparseErase_mem (l : List (Nat × α)) (k : Nat) (x : Nat × α) (h : x ∈ sparseErase l k) : x ∈ l := by
  induction l with
  | nil => exact h
  | cons y l ih =>
    obtain ⟨o, v⟩ := y
    simp only [sparseErase] at h
    split at h
    · exact List.mem_cons_of_mem _ h
    · split at h
      · exact h
      · rcases List.mem_cons.mp h with h | h
        · exact h ▸ List.mem_cons_self
        · exact List.mem_cons_of_mem _ (ih h)

theorem sparseInsert_mem (l : List (Nat × α)) (k : Nat) (v : α) (x : Nat × α) (h : x ∈ sparseInsert l k v) :
    x = (k, v) ∨ x ∈ l := by
  induction l with
  | nil => simpa [sparseInsert] using h
  | cons y l ih =>
    obtain ⟨o, w⟩ := y
    simp only [sparseInsert] at h
    split at h
    · rcases List.mem_cons.mp h with h | h
      · exact .inl h
      · exact .inr (List.mem_cons_of_mem _ h)
    · split at h
      · rcases List.mem_cons.mp h with h | h
        · exact .inl h
        · exact .inr h
      · rcases List.mem_cons.mp h with h | h
        · exact .inr (h ▸ List.mem_cons_self)
        · rcases ih h with h | h
          · exact .inl h
          · exact .inr (List.mem_cons_of_mem _ h)

variable [DecidableEq α]

theorem sparseErase_wf (d : Nat → α) (l : List (Nat × α)) (k : Nat) (h : sparseWf d l = true) :
    sparseWf d (sparseErase l k) = true := by
  induction l with
  | nil => rfl
  | cons y l ih =>
    obtain ⟨o, v⟩ := y
    have ⟨h1, h2, h3⟩ := (sparseWf_cons d o v l).mp h
    simp only [sparseErase]
    split
    · exact h3
    · split
      · exact h
      · exact (sparseWf_cons d o v _).mpr ⟨h1, fun x hx => h2 x (sparseErase_mem l k x hx), ih h3⟩

theorem sparseInsert_wf (d : Nat → α) (l : List (Nat × α)) (k : Nat) (v : α) (hv : v ≠ d k)
    (h : sparseWf d l = true) : sparseWf d (sparseInsert l k v) = true := by
  induction l with
  | nil => simp [sparseInsert, sparseWf, hv]
  | cons y l ih =>
    obtain ⟨o, w⟩ := y
    have ⟨h1, h2, h3⟩ := (sparseWf_cons d o w l).mp h
    simp only [sparseInsert]
    split
    · rename_i e
      subst e
      exact (sparseWf_cons d _ v l).mpr ⟨hv, h2, h3⟩
    · rename_i e
      split
      · rename_i lt
        refine (sparseWf_cons d k v _).mpr ⟨hv, fun x hx => ?_, h⟩
        rcases List.mem_cons.mp hx with hx | hx
        · exact hx ▸ lt
        · exact Nat.lt_trans lt (h2 x hx)
      · rename_i lt
        refine (sparseWf_cons d o w _).mpr ⟨h1, fun x hx => ?_, ih h3⟩
        rcases sparseInsert_mem l k v x hx with hx | hx
        · exact hx ▸ (Nat.lt_of_le_of_ne (Nat.le_of_not_lt lt) e)
        · exact h2 x hx

/-- A write keeps the canonical form. -/
theorem sparseSet_wf (d : Nat → α) (l : List (Nat × α)) (k : Nat) (v : α) (h : sparseWf d l = true) :
    sparseWf d (sparseSet d l k v) = true := by
  unfold sparseSet
  split
  · exact sparseErase_wf d l k h
  · exact sparseInsert_wf d l k v (by assumption) h

theorem sparseGet_erase (d : Nat → α) (l : List (Nat × α)) (k j : Nat) (h : sparseWf d l = true) :
    sparseGet d (sparseErase l k) j = if j = k then d k else sparseGet d l j := by
  induction l with
  | nil => by_cases e : j = k <;> simp [sparseErase, sparseGet, e]
  | cons y l ih =>
    obtain ⟨o, v⟩ := y
    have ⟨h1, h2, h3⟩ := (sparseWf_cons d o v l).mp h
    simp only [sparseErase]
    by_cases e : o = k
    · subst e
      by_cases f : j = o
      · subst f; simp [sparseGet_below d l j h2]
      · have g : ¬o = j := fun e => f e.symm
        simp [f, g, sparseGet]
    · by_cases lt : k < o
      · by_cases f : j = k
        · subst f
          have : ∀ x ∈ (o, v) :: l, j < x.1 := by
            intro x hx
            rcases List.mem_cons.mp hx with hx | hx
            · exact hx ▸ lt
            · exact Nat.lt_trans lt (h2 x hx)
          simp [e, lt, sparseGet_below d _ j this]
        · simp [e, lt, f]
      · simp only [e, lt, if_false, sparseGet]
        by_cases g : o = j
        · subst g; simp [e]
        · simp [g, ih h3]

omit [DecidableEq α] in
theorem sparseGet_insert (d : Nat → α) (l : List (Nat × α)) (k j : Nat) (v : α) :
    sparseGet d (sparseInsert l k v) j = if j = k then v else sparseGet d l j := by
  induction l with
  | nil =>
    by_cases e : j = k
    · simp [sparseInsert, sparseGet, e]
    · have f : ¬k = j := fun h => e h.symm
      simp [sparseInsert, sparseGet, e, f]
  | cons y l ih =>
    obtain ⟨o, w⟩ := y
    simp only [sparseInsert]
    by_cases e : o = k
    · subst e
      by_cases f : j = o <;> simp [sparseGet, f, eq_comm]
    · by_cases lt : k < o
      · by_cases f : j = k
        · simp [e, lt, f, sparseGet]
        · have g : ¬k = j := fun e => f e.symm
          simp [e, lt, f, g, sparseGet]
      · simp only [e, lt, if_false, sparseGet, ih]
        by_cases g : o = j
        · subst g; simp [e]
        · simp [g]

/-- A read after a write finds the value written, and every other key as before. -/
theorem sparseGet_set (d : Nat → α) (l : List (Nat × α)) (k j : Nat) (v : α) (h : sparseWf d l = true) :
    sparseGet d (sparseSet d l k v) j = if j = k then v else sparseGet d l j := by
  unfold sparseSet
  split
  · rename_i e; rw [sparseGet_erase d l k j h, e]
  · exact sparseGet_insert d l k j v

theorem sparseSetAll_wf (d : Nat → α) (l : List (Nat × α)) (k : Nat) (vs : List α) (h : sparseWf d l = true) :
    sparseWf d (sparseSetAll d l k vs) = true := by
  induction vs generalizing l k with
  | nil => exact h
  | cons v rest ih => exact ih _ _ (sparseSet_wf d l k v h)

/-- A read after a write of consecutive values. -/
theorem sparseGet_setAll (d : Nat → α) (l : List (Nat × α)) (k j : Nat) (vs : List α) (h : sparseWf d l = true) :
    sparseGet d (sparseSetAll d l k vs) j =
      if k ≤ j ∧ j < k + vs.length then (vs[j - k]?).getD (sparseGet d l j) else sparseGet d l j := by
  induction vs generalizing l k with
  | nil => simp [sparseSetAll]
  | cons v rest ih =>
    simp only [sparseSetAll]
    rw [ih _ _ (sparseSet_wf d l k v h), sparseGet_set d l k j v h]
    by_cases e : j = k
    · subst e
      have h1 : ¬j + 1 ≤ j := by omega
      simp [h1]
    · by_cases c : k + 1 ≤ j ∧ j < k + 1 + rest.length
      · have h2 : k ≤ j ∧ j < k + (v :: rest).length := by simp only [List.length_cons]; omega
        have h3 : j - k = (j - (k + 1)) + 1 := by omega
        rw [if_pos c, if_pos h2, h3]
        simp [e]
      · have h2 : ¬(k ≤ j ∧ j < k + (v :: rest).length) := by simp only [List.length_cons]; omega
        rw [if_neg c, if_neg h2]
        simp [e]

theorem sparseFilter_wf (d : Nat → α) (l : List (Nat × α)) (q : Nat × α → Bool) (h : sparseWf d l = true) :
    sparseWf d (l.filter q) = true := by
  induction l with
  | nil => rfl
  | cons y l ih =>
    obtain ⟨o, v⟩ := y
    have ⟨h1, h2, h3⟩ := (sparseWf_cons d o v l).mp h
    rw [List.filter_cons]
    split
    · exact (sparseWf_cons d o v _).mpr ⟨h1, fun x hx => h2 x (List.mem_filter.mp hx).1, ih h3⟩
    · exact ih h3

/-- A store kept at some of its keys only. -/
theorem sparseGet_filter (d : Nat → α) (l : List (Nat × α)) (q : Nat → Bool) (j : Nat) (h : sparseWf d l = true) :
    sparseGet d (l.filter fun x => q x.1) j = if q j then sparseGet d l j else d j := by
  induction l with
  | nil => by_cases e : q j <;> simp [sparseGet, e]
  | cons y l ih =>
    obtain ⟨o, v⟩ := y
    have ⟨_, h2, h3⟩ := (sparseWf_cons d o v l).mp h
    rw [List.filter_cons]
    by_cases e : o = j
    · subst e
      by_cases f : q o = true
      · simp [f, sparseGet]
      · have : sparseGet d (l.filter fun x => q x.1) o = d o :=
          sparseGet_below d _ o fun x hx => h2 x (List.mem_filter.mp hx).1
        simp [f, this]
    · by_cases f : q o = true <;> simp [f, sparseGet, e, ih h3]

/-- Stores in canonical form that read alike are equal. -/
theorem sparse_ext (d : Nat → α) (l m : List (Nat × α)) (hl : sparseWf d l = true) (hm : sparseWf d m = true)
    (h : ∀ k, sparseGet d l k = sparseGet d m k) : l = m := by
  induction l generalizing m with
  | nil =>
    cases m with
    | nil => rfl
    | cons y m =>
      obtain ⟨o, v⟩ := y
      have ⟨h1, _, _⟩ := (sparseWf_cons d o v m).mp hm
      have := h o
      simp [sparseGet] at this
      exact absurd this.symm h1
  | cons x l ih =>
    obtain ⟨o, v⟩ := x
    have ⟨h1, h2, h3⟩ := (sparseWf_cons d o v l).mp hl
    cases m with
    | nil =>
      have := h o
      simp [sparseGet] at this
      exact absurd this h1
    | cons y m =>
      obtain ⟨p, w⟩ := y
      have ⟨g1, g2, g3⟩ := (sparseWf_cons d p w m).mp hm
      have key : o = p := by
        rcases Nat.lt_trichotomy o p with c | c | c
        · have := h o
          rw [sparseGet_below d ((p, w) :: m) o] at this
          · simp [sparseGet] at this; exact absurd this h1
          · intro x hx
            rcases List.mem_cons.mp hx with hx | hx
            · exact hx ▸ c
            · exact Nat.lt_trans c (g2 x hx)
        · exact c
        · have := h p
          rw [sparseGet_below d ((o, v) :: l) p] at this
          · simp [sparseGet] at this; exact absurd this.symm g1
          · intro x hx
            rcases List.mem_cons.mp hx with hx | hx
            · exact hx ▸ c
            · exact Nat.lt_trans c (h2 x hx)
      subst key
      have hv : v = w := by simpa [sparseGet] using h o
      subst hv
      have : l = m := by
        refine ih m h3 g3 fun k => ?_
        by_cases e : o = k
        · subst e; rw [sparseGet_below d l o h2, sparseGet_below d m o g2]
        · simpa [sparseGet, e] using h k
      rw [this]

end Sys2Proof.Machine
end

