-- ==== Sys2Proof/Laws/Memory.lean ====
section
/-! SUPPORT. DRAM and the boot flash: every operation on them keeps their canonical form, and what a write of a block
or of the array leaves in each byte. -/

namespace Sys2Proof.Machine

/-! ## DRAM -/

@[simp] theorem memWf_reset : memWf Stacks.reset = true := rfl
@[simp] theorem flashWf_reset : flashWf Flash.reset = true := rfl

theorem putBlock_wf (k : Stacks) (blk : Nat) (data : List Byte) (p : Bool) (h : memWf k = true) :
    memWf (putBlock k blk data p) = true := sparseSetAll_wf _ _ _ _ h

theorem putTag_wf (k : Stacks) (line : Nat) (t : BitVec 56)
    (h : sparseWf (fun _ => BitVec.allOnes 56) k.tags = true) :
    sparseWf (fun _ => BitVec.allOnes 56) (putTag k line t).tags = true := sparseSet_wf _ _ _ _ h

/-- A byte of DRAM after a write of a block. -/
theorem memByte_putBlock (k : Stacks) (blk : Nat) (data : List Byte) (p : Bool) (a : Nat) (h : memWf k = true) :
    memByte (putBlock k blk data p) a =
      if 32 * blk ≤ a ∧ a < 32 * blk + data.length then (data[a - 32 * blk]?).getD (memByte k a) else memByte k a :=
  sparseGet_setAll _ _ _ _ _ h

@[simp] theorem memByte_putTag (k : Stacks) (line : Nat) (t : BitVec 56) (a : Nat) :
    memByte (putTag k line t) a = memByte k a := rfl

/-- DRAM and its tags in canonical form. -/
def DramWf (s : State) : Prop := memWf s.stk = true ∧ sparseWf (fun _ => BitVec.allOnes 56) s.stk.tags = true

/-- The bytes and the tags of DRAM are the same. -/
def SameDram (s t : State) : Prop := t.stk.mem = s.stk.mem ∧ t.stk.tags = s.stk.tags

theorem SameDram.refl (s : State) : SameDram s s := ⟨rfl, rfl⟩

theorem SameDram.trans {s t u : State} (a : SameDram s t) (b : SameDram t u) : SameDram s u :=
  ⟨b.1.trans a.1, b.2.trans a.2⟩

theorem SameDram.wf {s t : State} (a : SameDram s t) (h : DramWf s) : DramWf t := by
  simpa [DramWf, memWf, a.1, a.2] using h

theorem SameDram.byte {s t : State} (a : SameDram s t) (n : Nat) : memByte t.stk n = memByte s.stk n := by
  simp [memByte, a.1]

/-- A loop whose turns leave DRAM as it is does so. -/
theorem SameDram.each {α : Type} (l : List α) (f : α → State → State) (s : State)
    (h : ∀ x s, SameDram s (f x s)) : SameDram s (s.each l f) :=
  State.each_keeps (SameDram s) l f s (fun x _ t w => w.trans (h x t)) (SameDram.refl s)

/-! ### What leaves DRAM as it is -/

theorem countDatapath_same (s : State) (port : StkPort) (d : Decoded) : SameDram s (countDatapath s port d) := by
  cases d <;> simp [countDatapath, SameDram]

theorem arriveHalf_same (port : StkPort) (r : StkReq) (h : Nat) (s : State) : SameDram s (arriveHalf port r h s).1 := by
  simp only [arriveHalf]
  split
  · exact SameDram.refl s
  · exact countDatapath_same _ _ _

theorem countOor_same (s : State) : SameDram s (countOor s) := by simp [countOor, SameDram]

theorem memWake_same (s : State) : SameDram s (memWake s) := by
  simp only [memWake]
  split <;> exact ⟨rfl, rfl⟩

theorem giveLine_same (from_ : Requester) (line : Nat) (view : List (Option Byte)) (s : State) :
    SameDram s (giveLine from_ line view s) := by
  cases from_ <;> exact ⟨rfl, rfl⟩

theorem fencedWrite_same (from_ : Requester) (s : State) : SameDram s (fencedWrite from_ s) := by
  simp only [fencedWrite]
  split
  · split <;> exact ⟨rfl, rfl⟩
  · exact SameDram.refl s

theorem refuseReq_same (r : StkReq) (fetch : Bool) (s : State) : SameDram s (refuseReq r fetch s) := by
  simp only [refuseReq]
  split
  · exact SameDram.refl s
  · split
    · exact (countOor_same s).trans (fencedWrite_same _ _)
    · exact (countOor_same s).trans (giveLine_same _ _ _ _)

theorem modSub_same (i : Fin 16) (f : Sub → Sub) (s : State) : SameDram s (s.modSub i f) := ⟨rfl, rfl⟩

theorem modPort_same (p : StkPort) (f : PortCnt → PortCnt) (s : State) : SameDram s (s.modPort p f) := ⟨rfl, rfl⟩

theorem setEvt_same (s : State) (p : Page) (n : Nat) : SameDram s (setEvt s p n) := by simp [SameDram]

theorem detect_same (s : State) (p : Page) (unit code attempts cls : Nat) :
    SameDram s (detect s p unit code attempts cls) := ⟨rfl, rfl⟩

theorem errLast_same (type line : Nat) (s : State) : SameDram s (errLast type line s) := ⟨rfl, rfl⟩

theorem enterQueue_same (p : StkPort) (r : StkReq) (fetch : Bool) (i : Fin 16) (s : State) :
    SameDram s (enterQueue p r fetch i s) := by
  have g : ∀ (t : State) (b0 b1 : List (Nat × Byte) × Bool), SameDram s t →
      SameDram s
        (let x := queued s p r fetch b0 b1
        let s2 := t.modSub i fun c => let c' := inorderEnter x c; { c' with queue := c'.queue ++ [x] }
        let s3 := s2.modPort p fun c => { c with req := c.req + 1, peak := max c.peak (portNow s2.stk p) }
        let s4 := if x.merge then s3.modStacks fun k => { k with waiting := k.waiting ++ [fetchReq r] } else s3
        if p = 4 then s4 else idleNow s4) := by
    intro t b0 b1 h
    dsimp only
    split <;> split <;> exact ⟨h.1, h.2⟩
  by_cases hw : r.write = true
  · simp only [enterQueue, hw, if_true]
    exact g _ _ _ ((arriveHalf_same p r 0 s).trans (arriveHalf_same p r 1 _))
  · simp only [enterQueue, hw]
    exact g s _ _ (SameDram.refl s)

theorem admitOne_same (x : StkPort × StkReq × Bool) (acc : State × List (StkPort × StkReq × Bool) × List StkPort) :
    SameDram acc.1 (admitOne x acc).1 := by
  obtain ⟨s, kept, stuck⟩ := acc
  simp only [admitOne]
  split
  · exact SameDram.refl s
  · split
    · split
      · exact SameDram.refl s
      · split
        · exact fencedWrite_same _ _
        · exact giveLine_same _ _ _ _
    · exact refuseReq_same _ _ _
    · split
      · exact enterQueue_same _ _ _ _ _
      · exact SameDram.refl s

theorem admitPass_same (s : State) : SameDram s (admitPass s) := by
  have k : ∀ (l : List (StkPort × StkReq × Bool)) (acc : State × List (StkPort × StkReq × Bool) × List StkPort),
      SameDram acc.1 (l.foldl (fun acc x => admitOne x acc) acc).1 := by
    intro l
    induction l with
    | nil => exact fun acc => SameDram.refl acc.1
    | cons x l ih => exact fun acc => (admitOne_same x acc).trans (ih _)
  have h := k s.stk.waiting (s.modStacks fun k => { k with waiting := [] }, [], [])
  exact ⟨h.1, h.2⟩

theorem letIn_same (s : State) : SameDram s (letIn s) := by
  simp only [letIn]
  split
  · exact (admitPass_same s).trans (admitPass_same _)
  · exact SameDram.refl s

/-- A request that reaches its port changes no byte of DRAM: a write does so when it issues. -/
theorem requestEnter_same (p : StkPort) (r : StkReq) (s : State) : SameDram s (requestEnter p r s) := by
  simp only [requestEnter]
  split
  · exact SameDram.refl s
  · refine SameDram.trans ?_ (letIn_same _)
    split
    · exact ⟨rfl, rfl⟩
    · exact memWake_same s

theorem promote_same (i : Fin 16) (s : State) : SameDram s (promote i s) :=
  SameDram.trans (t := s.modSub i _) ⟨rfl, rfl⟩ (SameDram.each _ _ _ fun _ _ => ⟨rfl, rfl⟩)

theorem lineStored_same (from_ : Requester) (line : Nat) (s : State) : SameDram s (lineStored from_ line s) := by
  simp only [lineStored]
  split
  · split <;> exact ⟨rfl, rfl⟩
  · exact SameDram.refl s

theorem p5Requests_same (n : Nat) (s : State) : SameDram s (p5Requests n s) := by
  simp only [p5Requests]
  split <;> exact ⟨rfl, rfl⟩

theorem correctedRead_same (i : Fin 16) (line : Nat) (d : LineData) (again : List LineErr) (s : State) :
    SameDram s (correctedRead i line d again s) := by
  simp only [correctedRead]
  split
  · exact (((p5Requests_same _ s).trans (modSub_same _ _ _)).trans (setEvt_same _ _ _)).trans (detect_same _ _ _ _ _ _)
  · exact (((p5Requests_same _ s).trans (modSub_same _ _ _)).trans (errLast_same _ _ _)).trans (detect_same _ _ _ _ _ _)

/-- The judgement of a read changes no byte of DRAM. -/
theorem judgeRead_same (i : Fin 16) (line : Nat) (d : LineData) (first : LineErr) (again : List LineErr) (s : State) :
    SameDram s (judgeRead i line d first again s).2 := by
  simp only [judgeRead]
  split
  · exact SameDram.refl s
  · exact SameDram.refl s
  · exact correctedRead_same _ _ _ _ _
  · simp only [uncorrectedRead]
    split
    · exact p5Requests_same _ s
    · exact ((((p5Requests_same _ s).trans (modSub_same _ _ _)).trans (errLast_same _ _ _)).trans
        (setEvt_same _ _ _)).trans (detect_same _ _ _ _ _ _)
    all_goals
      have h := ((p5Requests_same (reReads d (stkRetry s) 0 again).1 s).trans
        (modSub_same i (fun c => { c with uncorrT := c.uncorrT + 1 }) _)).trans
        (detect_same _ .stk i.val (if ((judge d first).1 != .uncorrectable) = true then 0x63 else 0x62)
          (reReads d (stkRetry s) 0 again).1 clsTransient)
      split <;> first | exact h | exact h.trans (correctedRead_same _ _ _ _ _)

/-- A read that returns changes no byte of DRAM. -/
theorem readReturn_same (i : Fin 16) (first : LineErr) (again : List LineErr) (s : State) :
    SameDram s (readReturn i first again s) := by
  simp only [readReturn]
  split
  · exact SameDram.refl s
  · split
    · have h (x : QReq) (d : LineData) (rest : List (QReq × LineData)) :=
        (show SameDram s (s.modSub i fun c => { c with reads := rest }) from ⟨rfl, rfl⟩).trans
          (judgeRead_same i x.line d first again _)
      split
      · exact (h _ _ _).trans ⟨rfl, rfl⟩
      · exact (h _ _ _).trans (giveLine_same _ _ _ _)
    · exact SameDram.refl s

/-! ### A write issues -/

theorem storeHalf_wf (x : QReq) (h : Nat) (bad : Bool) (k : Stacks) (w : memWf k = true) :
    memWf (storeHalf x h bad k) = true := by
  simp only [storeHalf]
  split
  · exact putBlock_wf _ _ _ _ w
  · exact w

theorem storeHalf_tags (x : QReq) (h : Nat) (bad : Bool) (k : Stacks) : (storeHalf x h bad k).tags = k.tags := by
  simp only [storeHalf]
  split <;> rfl

/-- A byte of DRAM after half `h` of a write that touches it: a byte of that half takes the value that the write gives
it, and every other byte stays. -/
theorem memByte_storeHalf (x : QReq) (h : Nat) (bad : Bool) (k : Stacks) (a : Nat) (w : memWf k = true) :
    memByte (storeHalf x h bad k) a =
      if touchesHalf x.bytes h = true ∧ 32 * (2 * x.line + h) ≤ a ∧ a < 32 * (2 * x.line + h) + 32 then
        (reqByte x.bytes (32 * h + (a - 32 * (2 * x.line + h)))).getD 0
      else memByte k a := by
  simp only [storeHalf]
  by_cases t : touchesHalf x.bytes h = true
  · simp only [t, if_true, true_and]
    rw [memByte_putBlock _ _ _ _ _ w]
    simp only [reqHalf, List.length_map, List.length_range]
    split
    · rename_i c
      have : a - 32 * (2 * x.line + h) < 32 := by omega
      simp [this]
    · rfl
  · simp [t]

theorem storeLine_wf (x : QReq) (k : Stacks) (w : memWf k = true) : memWf (storeLine x k) = true := by
  have h := storeHalf_wf x 1 x.bad1 _ (storeHalf_wf x 0 x.bad0 k w)
  simp only [storeLine]
  split <;> exact h

theorem storeLine_tags_wf (x : QReq) (k : Stacks) (w : sparseWf (fun _ => BitVec.allOnes 56) k.tags = true) :
    sparseWf (fun _ => BitVec.allOnes 56) (storeLine x k).tags = true := by
  have h : (storeHalf x 1 x.bad1 (storeHalf x 0 x.bad0 k)).tags = k.tags := by simp [storeHalf_tags]
  simp only [storeLine]
  split
  · exact putTag_wf _ _ _ (by rw [h]; exact w)
  · rw [h]; exact w

/-- A request that issues keeps the canonical form; a read changes no byte. -/
theorem issueReq_wf (i : Fin 16) (n : Nat) (x : QReq) (s : State) (w : DramWf s) : DramWf (issueReq i n x s) := by
  simp only [issueReq]
  refine (letIn_same _).wf ?_
  have k : ∀ t : State, DramWf t → DramWf (if (reqUrgency s x == 3) = true then setEvt t .stk 10 else t) := by
    intro t h
    split
    · exact (setEvt_same _ _ _).wf h
    · exact h
  refine k _ ((modPort_same _ _ _).wf ?_)
  split
  · exact (lineStored_same _ _ _).wf ⟨storeLine_wf x _ w.1, storeLine_tags_wf x _ w.2⟩
  · exact w

theorem issueReq_read (i : Fin 16) (n : Nat) (x : QReq) (s : State) (h : x.write = false) :
    SameDram s (issueReq i n x s) := by
  simp only [issueReq, h]
  refine SameDram.trans ?_ (letIn_same _)
  constructor <;> (split <;> simp [State.modPort, State.modStacks])

theorem requestIssue_wf (i : Fin 16) (busy : List Nat) (s : State) (w : DramWf s) : DramWf (requestIssue i busy s) := by
  simp only [requestIssue]
  have h := (promote_same i (letIn s)).wf ((letIn_same s).wf w)
  split
  · split
    · exact issueReq_wf _ _ _ _ h
    · exact h
  · exact w

/-! ### Accesses of the other blocks -/

theorem issueNow_wf (p : StkPort) (r : StkReq) (i : Fin 16) (s t : State) (w : DramWf s) (h : issueNow p r i s =
    some t) :
    DramWf t := by
  simp only [issueNow] at h
  split at h
  · obtain ⟨x, -, rfl⟩ := Option.map_eq_some_iff.mp h
    exact issueReq_wf _ _ _ _ ((promote_same i _).wf ((enterQueue_same p r false i s).wf w))
  · cases h

theorem lastReturns_same (i : Fin 16) (line : Nat) (e : ReadErrs) (s : State) : SameDram s (lastReturns i line e s).2 :=
  SameDram.trans (t := s.modSub i fun c => { c with reads := c.reads.dropLast }) ⟨rfl, rfl⟩ (judgeRead_same _ _ _ _ _ _)

/-- A read of a line keeps the canonical form. -/
theorem readLine_wf (p : StkPort) (from_ : Requester) (line : Nat) (e : ReadErrs) (s : State)
    (x : List (Option Byte) × State) (w : DramWf s) (h : readLine p from_ line e s = some x) : DramWf x.2 := by
  simp only [readLine] at h
  split at h
  · cases h; exact w
  · split at h
    · cases h
    · split at h
      · cases h; exact w
      · cases h; exact (countOor_same s).wf w
      · obtain ⟨t, ht, rfl⟩ := Option.map_eq_some_iff.mp h
        exact (lastReturns_same _ _ _ _).wf (issueNow_wf _ _ _ _ _ w ht)

theorem partNow_wf (p : StkPort) (r : StkReq) (i : Fin 16) (e : ReadErrs) (s t : State) (w : DramWf s)
    (h : partNow p r i e s = some t) : DramWf t := by
  simp only [partNow] at h
  have h0 := (promote_same i _).wf ((letIn_same _).wf ((enterQueue_same p r false i s).wf w))
  split at h
  · split at h
    · cases h
    · split at h
      · obtain ⟨y, -, rfl⟩ := Option.map_eq_some_iff.mp h
        refine issueReq_wf _ _ _ _ ((modSub_same _ _ _).wf ?_)
        exact (lastReturns_same _ _ _ _).wf (issueReq_wf _ _ _ _ h0)
      · cases h
  · cases h

/-- A write of a line or a part of it keeps the canonical form. -/
theorem writeReq_wf (p : StkPort) (r : StkReq) (e : ReadErrs) (s : State) (w : DramWf s) :
    DramWf (writeReq p r e s) := by
  have c : ∀ t, (match lineAns s r.line with
      | .dram i => if wholeLine r.bytes then issueNow p r i s else partNow p r i e s
      | .off | .refused => none) = some t → DramWf t := by
    intro t ht
    split at ht
    · split at ht
      · exact issueNow_wf _ _ _ _ _ w ht
      · exact partNow_wf _ _ _ _ _ _ w ht
    · cases ht
    · cases ht
  simp only [writeReq]
  split
  · exact w
  · split
    · exact c _ ‹_›
    · exact (requestEnter_same p r s).wf w

/-- A transfer into DRAM keeps its canonical form. -/
theorem writeBytes_wf (p : StkPort) (from_ : Requester) (a first : Nat) (bytes : List (Option Byte)) (bad : Nat → Bool)
    (errs : LineReads) (s : State) (w : DramWf s) : DramWf (writeBytes p from_ a first bytes bad errs s) :=
  State.each_keeps DramWf _ _ s (fun _ _ _ h => writeReq_wf p _ _ _ h) w

/-! ## The boot flash -/

theorem flashPut_wf (f : Flash) (a : Nat) (bytes : List Byte) (h : flashWf f = true) :
    flashWf (flashPut f a bytes) = true :=
  sparseSetAll_wf _ _ _ _ h

/-- Programming keeps the canonical form. -/
theorem flashProgram_wf (f : Flash) (a : Nat) (bytes : List Byte) (h : flashWf f = true) :
    flashWf (flashProgram f a bytes) = true := flashPut_wf f a _ h

/-- Erasure keeps the canonical form. -/
theorem flashErased_wf (f : Flash) (a n : Nat) (h : flashWf f = true) : flashWf (flashErased f a n) = true :=
  sparseFilter_wf _ _ _ h

theorem flashByte_put (f : Flash) (a : Nat) (bytes : List Byte) (j : Nat) (h : flashWf f = true) :
    flashByte (flashPut f a bytes) j =
      if a ≤ j ∧ j < a + bytes.length then (bytes[j - a]?).getD (flashByte f j) else flashByte f j :=
  sparseGet_setAll _ _ _ _ _ h

/-- A byte after an erasure of `n` bytes from `a`. -/
theorem flashByte_erased (f : Flash) (a n j : Nat) (h : flashWf f = true) :
    flashByte (flashErased f a n) j = if a ≤ j ∧ j < a + n then 0xFF else flashByte f j := by
  have := sparseGet_filter (fun _ => (0xFF : Byte)) f.bytes (fun k => decide (k < a) || decide (a + n ≤ k)) j h
  simp only [flashByte, flashErased, this]
  by_cases c : a ≤ j ∧ j < a + n
  · have : ¬(j < a) ∧ ¬(a + n ≤ j) := by omega
    simp [c, this]
  · have : j < a ∨ a + n ≤ j := by omega
    simp [c, this]

@[simp] theorem takeFrees_flash (s : State) (n : Nat) : (takeFrees s n).flash = s.flash := rfl

theorem flashWf_buf (f : Flash) (b : Vector Byte 256) : flashWf { f with buf := b } = flashWf f := rfl

/-- What a host operation leaves of the flash is in canonical form. -/
theorem flCarryOut_wf (s : State) (ctl addr : Word) (h : flashWf s.flash = true) :
    flashWf (flCarryOut s ctl addr).flash = true := by
  simp only [flCarryOut]
  split
  · rw [State.modFlash_flash, flashWf_buf, takeFrees_flash]
    exact h
  · rw [State.modFlash_flash]
    exact flashProgram_wf _ _ _ h
  · rw [State.modFlash_flash]
    exact flashErased_wf _ _ _ h

theorem flFailed_wf (s : State) (ctl addr : Word) (h : flashWf s.flash = true) :
    flashWf (flFailed s ctl addr).flash = true := by
  simp only [flFailed]
  split
  · exact h
  · split
    · rw [State.modFlash_flash, flashWf_buf, takeFrees_flash]
      exact h
    · rw [State.modFlash_flash]
      exact flashPut_wf _ _ _ h
    · split
      · exact h
      · rw [State.modFlash_flash]
        exact flashPut_wf _ _ _ h
    · exact h

/-! ## Numbers in the flash -/

/-- Little-endian bytes spell the number that they came from, as far as they reach. -/
theorem leNat_leBytes (n x : Nat) : leNat (leBytes n x) = x % 256 ^ n := by
  induction n generalizing x with
  | zero => simp [leBytes, leNat, Nat.mod_one]
  | succ n ih =>
    have e : leBytes (n + 1) x = BitVec.ofNat 8 x :: leBytes n (x / 256) := by
      simp only [leBytes, List.range_succ_eq_map, List.map_cons, List.map_map, Nat.pow_zero, Nat.div_one]
      refine congrArg _ (List.map_congr_left fun i _ => ?_)
      simp [Nat.pow_succ, Nat.div_div_eq_div_mul, Nat.mul_comm]
    have h : leNat (leBytes (n + 1) x) = x % 256 + 256 * leNat (leBytes n (x / 256)) := by
      rw [e]; simp [leNat]
    rw [h, ih, Nat.pow_succ, Nat.mul_comm (256 ^ n) 256, Nat.mod_mul]

@[simp] theorem leBytes_length (n x : Nat) : (leBytes n x).length = n := by simp [leBytes]

/-- Bytes just written are read back. -/
theorem flashBytes_put (f : Flash) (a : Nat) (bytes : List Byte) (h : flashWf f = true) :
    flashBytes (flashPut f a bytes) a bytes.length = bytes := by
  refine List.ext_getElem (by simp [flashBytes, sparseGetAll]) fun i h1 h2 => ?_
  have e := flashByte_put f a bytes (a + i) h
  rw [if_pos (by omega)] at e
  simp only [flashBytes, sparseGetAll, List.getElem_map, List.getElem_range]
  exact e.trans (by simp [h2])

/-- Bytes beside a write stay. -/
theorem flashBytes_put_ne (f : Flash) (a b n : Nat) (bytes : List Byte) (h : flashWf f = true)
    (d : b + n ≤ a ∨ a + bytes.length ≤ b) : flashBytes (flashPut f a bytes) b n = flashBytes f b n := by
  refine List.map_congr_left fun i hi => ?_
  have hi := List.mem_range.mp hi
  have e := flashByte_put f a bytes (b + i) h
  rw [if_neg (by omega)] at e
  exact e

/-- A number just written is read back. -/
theorem flashNat_put (f : Flash) (a n x : Nat) (h : flashWf f = true) :
    flashNat (flashPut f a (leBytes n x)) a n = x % 256 ^ n := by
  have e := flashBytes_put f a (leBytes n x) h
  rw [leBytes_length] at e
  rw [flashNat, e, leNat_leBytes]

/-- A number beside a write stays. -/
theorem flashNat_put_ne (f : Flash) (a b n : Nat) (bytes : List Byte) (h : flashWf f = true)
    (d : b + n ≤ a ∨ a + bytes.length ≤ b) : flashNat (flashPut f a bytes) b n = flashNat f b n := by
  rw [flashNat, flashBytes_put_ne f a b n bytes h d, flashNat]

/-- A part of a range of bytes. -/
theorem flashBytes_part (f : Flash) (a m i n : Nat) (h : i + n ≤ m) :
    flashBytes f (a + i) n = ((flashBytes f a m).drop i).take n := by
  refine List.ext_getElem (by simp [flashBytes, sparseGetAll]; omega) fun k _ _ => ?_
  simp [flashBytes, sparseGetAll, Nat.add_assoc]

end Sys2Proof.Machine
end

