-- ==== Sys2Proof/Tests/Slice0.lean ====
section
/-! SUPPORT. Tests: the well-formedness smoke test, one step of each kind on a small state, and for every statement
states and operands that meet its hypotheses. -/

namespace Sys2Proof.Tests

open Sys2Proof.Machine

set_option maxRecDepth 20000

/-! ## Small states -/

/-- Every domain and the link are up, every supply in range, and the timebase is locked; tick 10,240 is a boundary of
every period that the tests use. -/
def up : State :=
  { State.reset with
    locked := true, tick := 10240, time := 10240
    power :=
      { Power.reset with
        powered := true, vddq := true, vana := true, rails := 0xFFFF, ctl := 0xFFFFF, up := 0xFFFFF, bootState := 5 }
    host := { HostLink.reset with linkUp := true, perst := false } }

/-- The state at another tick. -/
def at_ (n : Nat) (s : State) : State := { s with tick := n, time := BitVec.ofNat 64 n }

/-- A live value of a page. -/
def lv (p : Page) (off : Nat) (w : Word) (s : State) : State :=
  s.modPage p fun h => { h with live := sparseSet (rwdReset p) h.live off w }

/-- A live value of channel 0. -/
def cv (off : Nat) (w : Word) (s : State) : State := lv (.channel 0) off w s

/-- Channel 0 changed. -/
def c0 (f : Chan → Chan) : State := up.modChan 0 f

def force0 (f : Force → Force) : State := up.modForce 0 f
def loop0 (f : Loop → Loop) : State := up.modLoop 0 f
def prog0 (f : Prog → Prog) : State := up.modProg 0 f
def bay0 (f : Bay → Bay) : State := up.modBay 0 f

/-! ## Well-formedness: each check refuses an ill-formed term -/

def badErr : LineErr := { cw0 := [(36, 1)], cw1 := [], tag := 0, h := 0 }
def okErr : LineErr := { cw0 := [(35, 1)], cw1 := [(0, 0xFF)], tag := 1, h := 0 }

def okReq : StkReq :=
  { line := 0, from_ := .bar2, write := true, bytes := (List.range 64).map fun i => (i, BitVec.ofNat 8 (i + 1))
    tag := 5, err0 := [], err1 := [], poison0 := false, poison1 := false }

/-- A ring entry as R387 lays it out: HOST_ADDR 0x1000, DEV_ADDR 0, LENGTH and CTRL. -/
def ringEntry (length ctrl : Nat) : List Byte :=
  [0x00, 0x10, 0, 0, 0, 0, 0, 0] ++ [0, 0, 0, 0, 0, 0, 0, 0] ++ leBytes 4 length ++ leBytes 4 ctrl ++ List.replicate 8 0

def noData : HostData := { bytes := [], poisoned := [], failedAt := none, egress := [], dram := [], turn := false }
def okFlash : FlashParams := { size := 21, fastest := 5, minDiv := 4, pageSize := 256, erase := #v[4096, 32768, 65536, 0] }

theorem test_wf_request : (Instr.requestEnter 0 okReq).wf = true ∧
    (Instr.requestEnter 0 { okReq with line := 2 ^ 35 }).wf = false ∧
    (Instr.requestEnter 0 { okReq with bytes := [(64, 0)] }).wf = false ∧
    (Instr.requestEnter 0 { okReq with err0 := [(36, 1)] }).wf = false ∧
    (Instr.requestEnter 0 { okReq with err1 := [(36, 1)] }).wf = false := by decide

theorem test_wf_reads : (Instr.readReturn 0 okErr [okErr]).wf = true ∧ (Instr.readReturn 0 badErr []).wf = false ∧
    (Instr.readReturn 0 okErr [badErr]).wf = false ∧ (Instr.readReturn 0 okErr (List.replicate 8 okErr)).wf = false ∧
    (Instr.tagDone (okErr, [])).wf = true ∧ (Instr.tagDone (badErr, [])).wf = false ∧
    (Instr.tagDone (okErr, [badErr])).wf = false := by decide

theorem test_wf_bar2 : (Instr.bar2Access 0 (.read 1 [] [])).wf = true ∧
    (Instr.bar2Access 0 (.read 0 [] [])).wf = false ∧
    (Instr.bar2Access 0 (.read 4097 [] [])).wf = false ∧ (Instr.bar2Access 0 (.read 1 [(0, [(36, 1)])] [])).wf = false ∧
    (Instr.bar2Access 0 (.read 1 [] [(0, badErr, [])])).wf = false ∧
    (Instr.bar2Access 0 (.write [some 1] false [])).wf = true ∧ (Instr.bar2Access 0 (.write [] false [])).wf = false ∧
    (Instr.bar2Access 0 (.write [some 1] false [(0, okErr, [badErr])])).wf = false ∧
    (Instr.bar2Access 0 (.write (List.replicate 513 none) false [])).wf = false := by decide

theorem test_wf_descriptor : (Instr.descriptorComplete 0 (ringEntry 32 1) noData).wf = true ∧
    (Instr.descriptorComplete 0 (0 :: ringEntry 32 1) noData).wf = false ∧
    (Instr.descriptorComplete 0 (ringEntry 32 1) { noData with egress := [(0, [(36, 1)])] }).wf = false ∧
    (Instr.descriptorComplete 0 (ringEntry 32 1) { noData with dram := [(0, badErr, [])] }).wf = false := by decide

theorem test_wf_frame : (Instr.frameReceive .up (List.replicate 76 0) 0 0 0).wf = true ∧
    (Instr.frameReceive .up (List.replicate 75 0) 0 0 0).wf = false := by decide

theorem test_wf_device : (Instr.devicePowerUp ⟨true, false, 0⟩ (some okFlash)).wf = true ∧
    (Instr.devicePowerUp ⟨true, false, 0⟩ (some { okFlash with size := 20 })).wf = false ∧
    (Instr.devicePowerUp ⟨true, false, 0⟩ (some { okFlash with fastest := 6 })).wf = false ∧
    (Instr.linkUp 1 8).wf = true ∧ (Instr.linkUp 0 8).wf = false ∧ (Instr.linkUp 6 8).wf = false ∧
    (Instr.linkRateOrWidthChange 5 1).wf = true ∧ (Instr.linkRateOrWidthChange 5 3).wf = false := by decide

theorem test_wf_descriptor_length (n : Nat) (h : 16777216 < n) :
    (Instr.descriptorComplete 0 (ringEntry 32 1) { noData with bytes := List.replicate n 0 }).wf = false := by
  simp [Instr.wf, wfDesc, Nat.not_le.mpr h]

/-! ## Canonical stores and legal values of the small states -/

theorem hdr_reset_wf (p : Page) (v : BitVec 6) : hdrWf p (PageHdr.reset v) = true := by
  simp [hdrWf, PageHdr.reset, storeWf, sparseWf]

theorem up_page (p : Page) : up.page p = PageHdr.reset (vecReset p) := resetPages_get p

/-- Reset values of every page pass the range checks. -/
theorem legal_nil_chan (c : Fin 32) : ((chanClamps c).all fun r =>
    r.fix (field (storeGet (.channel 0) [] r.off) r.lsb r.width) ==
      field (storeGet (.channel 0) [] r.off) r.lsb r.width) = true := by
  revert c; decide

theorem legal_nil_catalogue : legalStore (.catalogue 0) [] = true := by decide
theorem legal_nil_line : legalStore (.line 0) [] = true := by decide
theorem legal_nil_folio : legalStore (.folio 0) [] = true := by decide
theorem legal_nil_dma : legalStore (.dma 0) [] = true := by decide
theorem legal_nil_sash : legalStore (.sash 0) [] = true := by decide
theorem legal_nil_shelf : legalStore (.shelf 0) [] = true := by decide

theorem canon_up : CanonicalStores up := by
  refine ⟨by decide, by decide, by decide, ?_, ?_⟩
  · intro b; simp [up, State.bay, State.reset, Bay.reset, sparseWf]
  · intro p; rw [up_page]; exact hdr_reset_wf p _

/-- Stores that list nothing are legal on every page. -/
theorem legal_empty (p : Page) : legalStore p [] = true := by
  cases p with
  | channel g => exact legal_nil_chan (inBay g)
  | catalogue b => exact legal_nil_catalogue
  | line b => exact legal_nil_line
  | folio b => exact legal_nil_folio
  | dma b => exact legal_nil_dma
  | sash b => exact legal_nil_sash
  | shelf b => exact legal_nil_shelf
  | stk => decide
  | lintel => decide
  | transom => decide
  | accession => decide
  | ndolek => decide
  | host => rfl
  | device => rfl
  | faultLog k => rfl
  | archive => rfl
  | msix => rfl
  | bay b => rfl

/-- The small state meets the hypotheses of both invariants, and one tick of it is a step. -/
theorem legal_up : LegalPages up := by
  intro p
  rw [up_page]
  refine ⟨legal_empty p, ?_⟩
  intro v h
  exact absurd h (by simp [PageHdr.reset])

/-- A state that differs from the small one in none of the sparse stores. -/
theorem canon_like (t : State) (mem : t.stk.mem = []) (tags : t.stk.tags = []) (fl : t.flash.bytes = [])
    (lists : ∀ b, (t.bay b).lists = []) (pages : ∀ p, hdrWf p (t.page p) = true) : CanonicalStores t := by
  refine ⟨?_, ?_, ?_, ?_, pages⟩
  · simp [memWf, mem, sparseWf]
  · simp [tags, sparseWf]
  · simp [flashWf, fl, sparseWf]
  · intro b; simp [lists, sparseWf]

/-- Page headers that are those of the small state. -/
theorem pages_like (t : State) (h : t.pages = up.pages) (p : Page) : hdrWf p (t.page p) = true := by
  have e : t.page p = up.page p := by simp only [State.page, h]
  rw [e]
  exact canon_up.pages p

theorem lists_up (b : BayNo) : (up.bay b).lists = [] := by
  simp [up, State.bay, State.reset, Bay.reset]

/-- One page changed, its header still in canonical form. -/
theorem pages_mod (s : State) (p : Page) (f : PageHdr → PageHdr) (h : ∀ q, hdrWf q (s.page q) = true)
    (hf : hdrWf p (f (s.page p)) = true) (q : Page) : hdrWf q ((s.modPage p f).page q) = true := by
  by_cases e : q = p
  · subst e; rw [State.page_modPage]; exact hf
  · rw [State.page_modPage_ne _ _ _ _ e]; exact h q

/-! ## Hypotheses of the statements are met: the block as a whole, pages, commits and events -/

def sQueue : State := { up with pending := [.flr, .send] }

theorem wit_queue : sQueue.pending = .flr :: [.send] ∧ up.pending = [] ∧ up.locked = true ∧ State.reset.pending = [] ∧
    State.reset.locked = false := by decide

theorem wit_completes : (∃ t, exec .flr up = .next t) ∧ (∃ t, step up = .next t) ∧ Instr.flr.wf = true :=
  ⟨⟨_, rfl⟩, ⟨_, rfl⟩, rfl⟩

def sCaptured : State := up.modPage .lintel fun h => { h with captured := some [(0x040, 1)] }
def sTaskApply : State := sCaptured.modPage .lintel fun h => { h with taskApply := true }
def sStaged : State := up.modPage (.sash 15) fun h => { h with staged := some [] }

theorem wit_commit : hostOpen up (.channel 511) = true ∧ (up.page (.channel 511)).captured = none ∧
    hostOpen sCaptured .lintel = true ∧ (sCaptured.page .lintel).captured ≠ none := by decide

theorem wit_commit_applies : pageUp sCaptured .lintel = true ∧
    (sCaptured.page .lintel).captured = some [(0x040, 1)] ∧ (sCaptured.page .lintel).taskApply = false ∧
    (sTaskApply.page .lintel).captured = some [(0x040, 1)] ∧ (sTaskApply.page .lintel).taskApply = true ∧
    hasCommitTask (.sash 15) = true ∧ hostOpen sStaged (.sash 15) = true ∧
    (sStaged.page (.sash 15)).staged = some [] ∧ (up.page (.sash 15)).staged = none ∧
    lineHopped sCaptured .lintel = false := by decide

def sEnabled : State := up.modPage .stk fun h => { h with evtEn := 0x80000000 }
def sMsixOn : State := sEnabled.modHost fun h =>
  { h with msixEn := true, msix := vmod h.msix 3 fun e => { e with masked := false } }
def sMsixMasked : State := sEnabled.modHost fun h => { h with msixEn := true, funcMask := true }

theorem wit_events : hostOpen up .stk = true ∧ (31 < 32) ∧ pageUp sEnabled .stk = true ∧
    (sEnabled.page .stk).evt.getLsbD 31 = false ∧ (sEnabled.page .stk).evtEn.getLsbD 31 = true ∧
    sEnabled.host.msixEn = false ∧ (sMsixOn.page .stk).vec = 3 ∧ sMsixOn.host.msixEn = true ∧
    sMsixOn.host.funcMask = false ∧ sMsixOn.host.msix[3].masked = false ∧ sMsixMasked.host.msixEn = true ∧
    sMsixMasked.host.funcMask = true := by decide

def sArmedPair : State := putPair .device { off := 0x048, shadow := 7, armed := true, held := none } up
def sHeldTag : State := putPair .archive { off := 0x060, shadow := 0, armed := false, held := some 0xFFFFFFFF } up
def sHeldList : State := putPair (.bay 15) { off := 0x088, shadow := 0, armed := false, held := some 5 } up

theorem wit_pairs : hostOpen up .device = true ∧ pairLow .device 0x048 = true ∧
    (pairAt up .device 0x048).armed = false ∧
    (pairAt sArmedPair .device 0x048).armed = true ∧ hostOpen up .archive = true ∧ pairRw .archive 0x060 = true ∧
    (pairAt sHeldTag .archive 0x060).held = some 0xFFFFFFFF ∧ hostOpen up (.bay 15) = true ∧
    (pairAt sHeldList (.bay 15) 0x088).held = some 5 := by decide

def sAutoInc : State := up.modBay 15 fun x => { x with listPtr := 0x80000FFF }

theorem wit_list_write : hostOpen up (.bay 15) = true ∧ (up.bay 15).listPtr.getLsbD 31 = false ∧
    (sAutoInc.bay 15).listPtr.getLsbD 31 = true := by decide

def sSpeedDue : State := at_ 1024 up
def sOff : State := { up with power := { up.power with up := 3 } }

theorem wit_register_accesses : domUp up 0 = true ∧ pageOf 0x060040 = some .lintel ∧ hostOpen up .lintel = true ∧
    (rwd .lintel (0x060040 % 4096)).isSome = true ∧ pairRw .lintel (0x060040 % 4096) = false ∧ 0x060040 % 4 = 0 ∧
    pairHigh .lintel (0x060040 % 4096) = false ∧ 0x060041 % 4 ≠ 0 ∧ bayUp sSpeedDue 15 = true ∧
    sSpeedDue.tick = (sSpeedDue.bay 15).speedFrom + 1024 ∧ hostOpen up (.bay 15) = true ∧
    (up.bay 15).speedFrom ≠ up.tick ∧ up.host.linkUp = true := by decide

/-! ## The force path, the loops and the programs -/

/-- Channel 0 is established in FV with every close source clear. -/
def sFv : State := cv 0x180 1 (up.modChan 0 fun c =>
  { c with force := { c.force with fixed := false }, loop := { c.loop with mode := .fv } })
def sOpenReq : State := sFv.modForce 0 fun f => { f with openReq := some 10239 }
def sOpenRefused : State := { sOpenReq with power := { sOpenReq.power with rails := 0 } }
def sTurning : State := sFv.modForce 0 fun f => { f with switch := .turningOn 10224 }
def sFirstReq : State := cv 0x180 1 (up.modForce 0 fun f => { f with openReq := some 10239 })
def sFirstDue : State := sFv.modForce 0 fun f => { f with firstOpen := some { t0 := 10160, period := 80, spanChange := false } }
def sFirstDueSpan : State := sFv.modForce 0 fun f =>
  { f with firstOpen := some { t0 := 10080, period := 80, spanChange := true } }

theorem wit_opens : hostOpen sFv (.channel 0) = true ∧ (sFv.chan 0).force.openReq = none ∧
    ((sFv.chan 0).force.closeTick.map Prod.fst) ≠ some sFv.tick ∧ (sOpenReq.chan 0).loop.modeReq = [] ∧
    (sOpenReq.chan 0).force.openReq = some 10239 ∧ 10239 < sOpenReq.tick ∧ onLoopBoundary sOpenReq 0 = true ∧
    shut sOpenReq 0 = false ∧ (sOpenReq.chan 0).force.firstOpen = none ∧ (sOpenReq.chan 0).force.fixed = false ∧
    refusal sOpenReq 0 = none ∧ refusal sOpenRefused 0 = some 5 ∧ (sTurning.chan 0).force.switch = .turningOn 10224 ∧
    sTurning.tick = 10224 + 16 := by decide

theorem wit_first_opening : hostOpen sFirstReq (.channel 0) = true ∧ (sFirstReq.chan 0).loop.modeReq = [] ∧
    onLoopBoundary sFirstReq 0 = true ∧ (sFirstReq.chan 0).force.switch = .off ∧
    (sFirstReq.chan 0).force.firstOpen = none ∧ (sFirstReq.chan 0).force.fixed = true ∧ refusal sFirstReq 0 = none ∧
    ((sFirstReq.chan 0).force.closeTick.map Prod.fst) ≠ some sFirstReq.tick ∧
    sFirstDue.tick = 10160 + 80 ∧ sFirstDueSpan.tick = 10080 + 2 * 80 ∧
    ((sFirstDue.chan 0).force.closeTick.map Prod.fst) ≠ some sFirstDue.tick := by decide

def sOn : State := sFv.modForce 0 fun f => { f with switch := .on }
def sClosing : State := sFv.modForce 0 fun f => { f with switch := .closing 10231 }
def sTripClosing : State := sFv.modForce 0 fun f => { f with switch := .tripClosing 10230 }

theorem wit_closes : hostOpen sOn (.channel 0) = true ∧ (sOn.chan 0).force.switch = .on ∧
    sOn.power.rails.getLsbD (bayOf 0).val = true ∧ bayUp sOn (bayOf 0) = true ∧
    (sClosing.chan 0).force.switch = .closing 10231 ∧ sClosing.tick = 10231 + 9 ∧
    (sTripClosing.chan 0).force.switch = .tripClosing 10230 ∧ sOn.power.powered = true ∧ sOn.power.vana = true := by
  decide

def sBooster : State := sFv.modForce 0 fun f => { f with boostLive := true }
def sSpanReq : State := sFv.modForce 0 fun f => { f with spanReq := some { first := 10239, last := 10239, held := false } }
def sSpanMove : State := cv 0x0D0 0x42 sSpanReq
def sMade : State := sFv.modForce 0 fun f =>
  { f with spanChange := some { old := .e, new := .c, sel := false, make := 10160, period := 80, scaled := false } }
def sOtherSpan : State := cv 0x0D0 0x42 (at_ 10256 (sMade.modForce 0 fun f =>
  { f with spanChange := f.spanChange.map fun x => { x with scaled := true } }))
def sScaled : State := at_ 10256 (sMade.modForce 0 fun f =>
  { f with spanChange := f.spanChange.map fun x => { x with scaled := true } })

theorem wit_spans : hostOpen sFv (.channel 0) = true ∧ isBooster sFv 0 = false ∧ (sFv.chan 0).force.fixed = false ∧
    (sFv.chan 0).force.spanReq = none ∧ isBooster sBooster 0 = true ∧ pageUp sSpanReq (.channel 0) = true ∧
    (sSpanReq.chan 0).loop.modeReq = [] ∧ onLoopBoundary sSpanReq 0 = true ∧
    (sSpanReq.chan 0).force.boostLive = false ∧ calDriving sSpanReq 0 = false ∧
    (sSpanReq.chan 0).force.spanChange = none ∧ spanTarget sSpanReq 0 = (sSpanReq.chan 0).force.spanLive ∧
    spanTarget sSpanMove 0 ≠ (sSpanMove.chan 0).force.spanLive ∧ sMade.tick = 10160 + 80 ∧
    sScaled.tick = 10160 + 80 + 16 ∧ (sScaled.chan 0).loop.modeReq = [] ∧ (sOtherSpan.chan 0).force.spanReq = none ∧
    isBooster sOtherSpan 0 = false ∧ spanTarget sOtherSpan 0 ≠ (sOtherSpan.chan 0).force.spanLive := by decide

def sSlew : State := cv 0x0C8 5 (cv 0x0C4 7 (up.modSlew 0 fun l => { l with next := some 10240, target := 0x40100 }))
def sSlewLast : State := cv 0x0C8 0x100 sSlew
def sDacDue : State := at_ 10242 (sFv.modSash 0 fun e => { e with dacq := [(0, 0x12345, 10240)] })
def sBoostReq : State := cv 0x0D0 0x01000000 (sFv.modForce 0 fun f => { f with boostReq := [(10239, true)] })
def sLaneReq : State := cv 0x200 3 (sFv.modMeas 0 fun m => { m with laneReq := [(10239, true, true)] })

theorem wit_limiter_and_dac : (sSlew.chan 0).slew.next = some sSlew.tick ∧ (sSlew.chan 0).loop.modeReq = [] ∧
    ((sSlew.chan 0).slew.undo.map Prod.fst) ≠ some sSlew.tick ∧
    ¬(slewStepSize sSlew 0 = 0 ∨
      (codeInt (sSlew.chan 0).slew.target - codeInt (sSlew.chan 0).slew.out).natAbs ≤ slewStepSize sSlew 0) ∧
    (slewStepSize sSlewLast 0 = 0 ∨
      (codeInt (sSlewLast.chan 0).slew.target - codeInt (sSlewLast.chan 0).slew.out).natAbs ≤ slewStepSize sSlewLast
      0) ∧
    pageUp sDacDue (.channel 0) = true ∧ sDacDue.locked = true ∧ sDacDue.time.toNat % 4 = 2 ∧
    (sDacDue.chan 0).force.fixed = false ∧ dacTook sDacDue 0 = false ∧ calDriving sDacDue 0 = false ∧
    seenCode sDacDue 0 false = some 0x12345 ∧ ((sBoostReq.chan 0).force.boostReq.filter fun x => decide (x.1 <
    sBoostReq.tick)).getLast? = some (10239, true) ∧
    onLoopBoundary sBoostReq 0 = true ∧ (sBoostReq.chan 0).force.boostLive ≠ true ∧
    ((sLaneReq.chan 0).meas.laneReq.filter fun x => decide (x.1 < sLaneReq.tick)).getLast? = some (10239, true,
    true) ∧ onFrame sLaneReq = true := by decide

def sOverrun : State := up.modSash 15 fun e => { e with frameStart := some 10160, todo := [31] }
def sDue : State := at_ 10241 ((sFv.modSash 0 fun e => { e with frameStart := some 10240, todo := [0, 5] }).modChan 0 fun c =>
  { c with
    loop := { c.loop with lastState := .run }
    meas := { c.meas with boxes := [{ v := 20, i := 40, ovrV := false, ovrI := false, n := 20, span := .e, boost := false }] } })

theorem wit_sash : pageUp sOverrun (.sash 15) = true ∧ onFrame sOverrun = true ∧
    (sOverrun.bay 15).sash.frameStart ≠ some sOverrun.tick ∧ (sOverrun.bay 15).sash.frameStart ≠ none ∧
    notReached (sOverrun.bay 15).sash = 31 :: [] ∧ (sDue.bay 0).sash.dacq.length < queueWords ∧
    pageUp sDue (.sash 0) = true ∧
    (sDue.bay 0).sash.frameStart = some 10240 ∧ (sDue.bay 0).sash.todo = 0 :: [5] ∧ 10240 < sDue.tick ∧
    onFrame sDue = false ∧ 0 < boxSamples (sDue.chan (chanOf 0 0)).meas.boxes ∧
    (sDue.chan (chanOf 0 0)).loop.lastState = .run ∧ (sDue.chan (chanOf 0 0)).loop.mode = .fv ∧
    (sDue.chan (chanOf 0 0)).loop.rescale = none := by decide

def sGrace : State := sOn.modLoop 0 fun l => { l with grace := some { openSense := false, micros := 3, endAt := some 10240 } }
def sGraceSense : State := (sOn.modLoop 0 fun l =>
    { l with grace := some { openSense := true, micros := 3, endAt := some 10240 } }).modMeas 0 fun m =>
  { m with boxes := [{ v := 20 * 34304, i := 0, ovrV := false, ovrI := false, n := 20, span := .e, boost := false }] }
def sHeld : State := up.modLoop 0 fun l => { l with held := true }
def sFreezing : State := up.modLoop 0 fun l => { l with freezeReq := [(10240, true)] }
def sModeReq : State := cv 0x180 0x302 (sFv.modLoop 0 fun l => { l with modeReq := [(10239, .fi, 3, 0)] })

theorem wit_loop : pageUp sGrace (.channel 0) = true ∧
    (sGrace.chan 0).loop.grace = some { openSense := false, micros := 3, endAt := some sGrace.tick } ∧
    (sGrace.chan 0).force.switch = .on ∧ senseRecovered (settleDue 0 sGraceSense) 0 = true ∧ 0 < 3 ∧
    hostOpen up (.channel 0) = true ∧ (up.tick, true) ∉ (up.chan 0).loop.freezeReq ∧
    (sFreezing.tick, true) ∈ (sFreezing.chan 0).loop.freezeReq ∧
    (up.chan 0).loop.resetReq = none ∧ (sHeld.chan 0).loop.held = true ∧ (sHeld.chan 0).loop.releaseReq = none ∧
    (sModeReq.chan 0).loop.modeReq = [(10239, .fi, 3, 0)] ∧ (sModeReq.chan 0).force.fixed = false ∧
    onMult sModeReq (loopPeriod .fi 3) = true := by decide

/-- Stacks serves requests, and no memory is mapped. -/
def noMem : Stacks := { Stacks.reset with nomem := true, initDone := true }
def sSpill : State := { up.modSash 0 fun e => { e with trace := { e.trace with spilling := [1] } } with stk := noMem }

theorem wit_trace : hostOpen up (.sash 0) = true ∧ (up.bay 0).sash.trace.running = false ∧
    (up.bay 0).sash.trace.armReq = none ∧ (up.bay 0).sash.trace.stopReq = none ∧ pageUp sSpill (.sash 0) = true ∧
    (sSpill.bay 0).sash.trace.spilling ≠ [] ∧ memServes sSpill = true ∧
    writesUnderWay (writeBytes 3 (.trace 0) (traceBase sSpill 0) (traceBase sSpill 0 / 64)
      ((sSpill.bay 0).sash.trace.spilling.flatMap fun e => (leBytes 8 e.toNat).map some) (fun _ => false) [] sSpill)
      (.trace 0) = false := by decide

/-- A sweep list of entries 1 to 2 on channel 0. -/
def sSweep : State := cv 0x110 0x00020001 (cv 0x100 1 up)
def sSweepRun : State := cv 0x114 1 (sSweep.modProg 0 fun p => { p with running := true, index := 1 })
def sDwell : State := sSweep.modProg 0 fun p => { p with running := true, index := 1, dwellAt := some 10240 }
def sDwellWait : State := sDwell.modProg 0 fun p => { p with cur := 0x0000000002000000 }

theorem wit_sweep : srcSel sSweep 0 = 1 ∧ hostOpen sSweep (.channel 0) = true ∧
    (sSweep.chan 0).prog.stopTick ≠ some sSweep.tick ∧ progSnapNow sSweep 0 = none ∧
    (sSweepRun.chan 0).prog.running = true ∧
    (sSweepRun.chan 0).prog.startTick ≠ some sSweepRun.tick ∧ (sSweepRun.chan 0).prog.dwellEnded ≠ some sSweepRun.tick ∧
    swpAdv sSweepRun 0 ≠ 0 ∧ (sSweepRun.chan 0).prog.index.toNat ≠ swpEnd sSweepRun 0 ∧ srcSel sSweepRun 0 = 1 ∧
    srcSel sDwell 0 = 1 ∧ (sDwell.chan 0).prog.running = true ∧ (sDwell.chan 0).prog.dwellAt = some sDwell.tick ∧
    swpAdv sDwell 0 ≠ 1 ∧ entryWait (sDwell.chan 0).prog.cur = false ∧
    (sDwell.chan 0).prog.index.toNat ≠ swpEnd sDwell 0 ∧ entryWait (sDwellWait.chan 0).prog.cur = true := by decide

/-- Codex playback of four points on channel 0, with no memory mapped. -/
def sCodex : State := cv 0x128 4 (cv 0x12C 9 (cv 0x100 2 { up with stk := noMem }))
def sPriming : State := sCodex.modProg 0 fun p => { p with priming := true }
def sCodexRun : State := sCodex.modProg 0 fun p =>
  { p with running := true, pointAt := some 10240, window := [(1, some 0x12345), (2, none)] }
def asleep (s : State) : State := { s with stk := { s.stk with sref := true } }
def sCodexMiss : State := sCodexRun.modProg 0 fun p => { p with window := [] }
def sCodexPoison : State := sCodexRun.modProg 0 fun p => { p with window := [(1, none)] }

theorem wit_codex : srcSel sCodex 0 = 2 ∧ hostOpen sCodex (.channel 0) = true ∧ (sCodex.chan 0).prog.running = false ∧
    (sPriming.chan 0).prog.priming = true ∧
    (cdxLoad 0 (List.range (min (cdxLen sPriming 0) 4096)) sPriming).isSome = true ∧
    cdxLoad 0 (List.range (min (cdxLen sPriming 0) 4096)) (asleep sPriming) = none ∧
    (cdxLoad 0 (cdxAhead sCodexRun 0 2 1) sCodexRun).isSome = true ∧
    cdxLoad 0 (cdxAhead sCodexRun 0 2 1) (asleep sCodexRun) = none ∧ (sCodexRun.chan 0).prog.running = true ∧
    (sCodexRun.chan 0).prog.pointAt = some sCodexRun.tick ∧ (sCodexRun.chan 0).prog.point + 1 < cdxLen sCodexRun 0 ∧
    cdxDrop ((sCodexRun.chan 0).prog.point + 1) (sCodexRun.chan 0).prog.window =
      ((sCodexRun.chan 0).prog.point + 1, some 0x12345) :: [(2, none)] ∧
    cdxDrop ((sCodexMiss.chan 0).prog.point + 1) (sCodexMiss.chan 0).prog.window = [] ∧
    cdxDrop ((sCodexPoison.chan 0).prog.point + 1) (sCodexPoison.chan 0).prog.window =
      ((sCodexPoison.chan 0).prog.point + 1, none) :: [] ∧
    pageUp sCodexMiss (.channel 0) = true := by decide

def sLouvre : State := cv 0x154 1 (cv 0x150 1 (cv 0x100 3 up))
def sLouvreNow : State := cv 0x154 0 sLouvre
def sLead : State := sLouvre.modProg 0 fun p => { p with running := true, leadAt := some 10240 }
def sTrail : State := sLouvre.modProg 0 fun p => { p with running := true, trailAt := some 10240 }
def sLeadForever : State := cv 0x150 0 sLead
def sTripped : State := up.modProg 0 fun p => { p with tripped := true }

theorem wit_louvre : srcSel sLouvre 0 = 3 ∧ hostOpen sLouvre (.channel 0) = true ∧
    (sLouvre.chan 0).prog.stopTick ≠ some sLouvre.tick ∧ progSnapNow sLouvre 0 = none ∧ 0 < lvDelay sLouvre 0 ∧
    lvDelay sLouvreNow 0 = 0 ∧ (sLead.chan 0).prog.running = true ∧
    (sLead.chan 0).prog.leadAt = some sLead.tick ∧ lvCount sLeadForever 0 = 0 ∧ (sTrail.chan 0).prog.running = true ∧
    (sTrail.chan 0).prog.trailAt = some sTrail.tick ∧ lvCount sTrail 0 ≠ 0 ∧
    lvCount sTrail 0 ≤ ((sTrail.chan 0).prog.pulses + 1).toNat ∧ (sTrail.chan 0).prog.startTick ≠ some sTrail.tick ∧
    srcSel up 0 = 0 ∧ (sTripped.chan 0).prog.tripped = true ∧ tripInput sTripped 0 = false := by decide

/-! ## The measure path, the comparators, Lintel and the Catalogue -/

def okInflight : Inflight :=
  { tick := 10236, time := 10236, rawV := 0x20000, rawI := 0x3FFFF, pairV := Pair.reset, pairI := Pair.reset
    uncal := true, span := .e, boost := false, flane := false, plane := false, spanChg := false, inputChg := false
    closed := false, cal := false }
def sInflight : State := up.modMeas 0 fun m => { m with inflight := some okInflight }
def okWin (item : Option (Bool × Nat)) : PrecWin :=
  { tick := 10238, last := 10236, n := 64, plane := false, item := item, v0 := LaneAcc.reset, v1 := LaneAcc.reset
    i0 := LaneAcc.reset, i1 := LaneAcc.reset }
def sPrec : State := up.modMeas 0 fun m => { m with prec := { m.prec with closed := some (okWin none) } }
def sPrecItem : State := up.modMeas 0 fun m => { m with prec := { m.prec with closed := some (okWin (some (true, 0))) } }
def sCapture : State := cv 0x240 2 up
def sCaptureTwice : State := sCapture.modRes 0 fun r => { r with capture := some 10200 }

theorem wit_sampling : pageUp sInflight (.channel 0) = true ∧ onMult sInflight 4 = true ∧
    (sInflight.chan 0).meas.inflight = some okInflight ∧ okInflight.tick + 4 ≤ sInflight.tick ∧
    (sPrec.chan 0).meas.prec.closed = some (okWin none) ∧ sPrec.tick = (okWin none).tick + 2 ∧
    (sPrecItem.chan 0).meas.prec.closed = some (okWin (some (true, 0))) ∧ hostOpen sCapture (.channel 0) = true ∧
    resMode sCapture 0 = 2 ∧ (sCapture.chan 0).res.capture = none ∧ (sCaptureTwice.chan 0).res.capture ≠ none := by
  decide

/-- The V window of channel 0 with its upper direction and CLOSE enabled at the highest threshold code 0. -/
def sWin : State := cv 0x280 0 (cv 0x288 9 sOn)
def sWinOff : State := cv 0x280 0 (cv 0x288 8 sOn)
def sSet : State := sWin.modWin 0 .v fun x => { x with latch := .above, raw := .above, setAt := [(10239, false)] }
def sSetTest : State := sWin.modWin 0 .v fun x => { x with latch := .above, raw := .above, setAt := [(10238, true)] }
def sWinSwap : State := cv 0x288 0x10009 sOn
def sSetTripped : State := sSet.modForce 0 fun f => { f with switch := .tripped 10238 1 }
def sSampled : State := at_ 10256 (cv 0x28C 160 (cv 0x288 0x100000 up))

theorem wit_windows : bayUp sWin (bayOf 0) = true ∧ sampled sWin 0 = false ∧ (sWin.win 0 .v).raw = .inside ∧
    rawAt sWin 0 .v 8388608 = .above ∧ winEnHi sWin 0 .v = true ∧ (sWin.win 0 .v).latch = .inside ∧
    blanked sWin 0 .v = false ∧ stest sWin 0 = 0 ∧ winClose sWin 0 .v = true ∧ (sWin.chan 0).force.switch = .on ∧
    winEnHi sWinOff 0 .v = false ∧ rawAt sWinOff 0 .v 8388608 = .above ∧ (sSet.win 0 .v).setAt = [(10239, false)] ∧
    10239 < sSet.tick ∧ sSet.tick ≤ 10239 + 2 ∧ (sSetTest.win 0 .v).setAt = [(10238, true)] ∧
    sSetTest.tick ≤ 10238 + 2 ∧ stest sWinSwap 0 = 1 ∧ pageUp sSet (.channel 0) = true ∧ stest sSetTripped 0 = 0 ∧
    (sSetTripped.chan 0).force.switch = .tripped 10238 1 ∧ sampled sSampled 0 = true ∧ sSampled.locked = true ∧
    sSampled.time.toNat % sper sSampled 0 = 16 := by decide

def sLatched : State := cv 0x288 4 (up.modWin 0 .v fun x => { x with latch := .above })
def sLatchedOut : State := sLatched.modWin 0 .v fun x => { x with raw := .above, leftAt := some 10239 }
def sLatchedNow : State := sLatchedOut.modWin 0 .v fun x => { x with setAt := [(10240, false)] }
def sBlankEnd : State := up.modWin 0 .i fun x => { x with blankPend := true, blankUntil := 10240 }
def sBlankEndOut : State := cv 0x288 0x100 (sBlankEnd.modWin 0 .i fun x => { x with raw := .above })

theorem wit_latches : hostOpen sLatched (.channel 0) = true ∧ winLatch sLatched 0 .v = true ∧
    (sLatched.win 0 .v).latch ≠ .inside ∧ (sLatched.win 0 .v).raw = .inside ∧ (sLatchedOut.win 0 .v).raw ≠ .inside ∧
    (sLatchedOut.win 0 .v).leftAt ≠ some sLatchedOut.tick ∧
    (sLatchedNow.win 0 .v).setAt.getLast?.map Prod.fst = some sLatchedNow.tick ∧
    (sLatched.win 0 .v).setAt.getLast?.map Prod.fst ≠ some sLatched.tick ∧
    (sLatchedOut.win 0 .v).setAt.getLast?.map Prod.fst ≠ some sLatchedOut.tick ∧
    winLatch sLatchedNow 0 .v = true ∧ (sLatchedNow.win 0 .v).latch ≠ .inside ∧ (sBlankEnd.win 0 .i).blankPend = true ∧
    (sBlankEnd.win 0 .i).blankUntil = sBlankEnd.tick ∧ blanked sBlankEnd 0 .i = false ∧
    (sBlankEnd.win 0 .i).latch = .inside ∧ winOut sBlankEnd 0 .i = false ∧
    winOut sBlankEndOut 0 .i = true := by decide

def sEval : State := { up with lintel := { up.lintel with evalAt := some 10239 } }
def sEvalOut : State := at_ 10241 { sEval with
  lintel := { sEval.lintel with bays := vmod sEval.lintel.bays 15 fun x => { x with result := some (2, true) } } }
def sLinSkip : State := { up with lintel := { up.lintel with skip := 1, upAt := 10239 } }
def sEvalDone : State := ({ up with lintel := { up.lintel with evalAt := some 10239, doneAt := some 10239 } } : State).modChan 0
  fun c => { c with lintelNew := some 100 }
def sEvalResult : State := { sEvalDone with
  lintel := { sEvalDone.lintel with bays := vmod sEvalDone.lintel.bays 0 fun x => { x with result := some (0, false) } } }

theorem wit_lintel : pageUp up .lintel = true ∧ onMult up 1280 = true ∧ up.lintel.evalAt ≠ some up.tick ∧
    up.lintel.skip = 0 ∧ sLinSkip.lintel.skip ≠ 0 ∧ ¬sLinSkip.tick ≤ sLinSkip.lintel.upAt ∧
    bayUp up 15 = true ∧ (up.lintel.bays[(15 : BayNo)]).skip = 0 ∧ bayUp sOff 15 = false ∧
    sEval.lintel.evalAt = some 10239 ∧ lintelReady sEval = false ∧ 10239 < sEval.tick ∧
    sEvalOut.lintel.evalAt = some 10239 ∧ 10239 < sEvalOut.tick ∧ onMult sEvalOut 1280 = false ∧
    sEvalOut.lintel.doneAt = none ∧ pageUp sEvalOut .lintel = true ∧
    (sEvalOut.lintel.bays[(15 : BayNo)]).result = some (2, true) ∧
    onFrame sEvalResult = true ∧ sEvalResult.lintel.doneAt = some 10239 ∧ bayUp sEvalResult (bayOf 0) = true ∧
    (sEvalResult.lintel.bays[bayOf 0]).result ≠ none ∧ (sEvalResult.chan 0).lintelNew = some 100 := by decide

/-- A window of one channel with its product in microwatts. -/
def okLinWin (d : Nat) : LinWin := { d := d, a := ⟨0, 1⟩, h := ⟨0, 1⟩ }

theorem wit_lintel_evaluate : ((0, 0xFFFF) : ChanNo × Nat) ∈ (linEvaluate up 0 [(0, okLinWin 100000000)]).1 ∧
    1000 * linEff up 0 < ([((0 : ChanNo), okLinWin 100000000)].map fun x => x.2.d).sum ∧
    ((0, 0xFFFF) : ChanNo × Nat) ∈ (linEvaluate up 0 [(0, okLinWin 0)]).1 ∧
    ([((0 : ChanNo), okLinWin 0)].map fun x => x.2.d).sum ≤ 1000 * linEff up 0 := by decide

def okSlot (inj : Bool) : CatSlot :=
  { entry := 0, start := 10080, startTime := 0, cfg := 0, corr := 0, shared := false, inj := inj, retry := false
    precal := false }
def sSlot (inj : Bool) : State := up.modCat 15 fun c => { c with a := { c.a with slot := some (okSlot inj) } }
def sSeq : State := lv (.catalogue 15) 0x040 1 up
def okRes (inj : Bool) : CatRes :=
  { value := 1, ovr := false, clip := false, inj := inj, precal := false, retry := false, entry := 15, conv := .b, time := 0 }
def sPost : State := up.modCat 0 fun c => { c with queue := [okRes false] }
def sPostInj : State := up.modCat 0 fun c => { c with queue := [okRes true] }
def sPostLate : State := up.modCat 0 fun c => { c with queue := [okRes false, okRes true] }

theorem wit_catalogue : pageUp (sSlot true) (.catalogue 15) = true ∧
    ((sSlot true).catConv 15 .a).slot = some (okSlot true) ∧
    (sSlot true).tick = 10080 + (32 * 2 ^ field (okSlot true).cfg 8 3 + 128) ∧ (sSeq.catConv 15 .a).slot = none ∧
    onMult sSeq 32 = true ∧
    (sSeq.catConv 15 .a).retryReq = none ∧ (sSeq.catConv 15 .a).injReq = none ∧ (sSeq.catConv 15 .a).startReq = none ∧
    (sSeq.bay 15).cat.held = false ∧ (sSeq.bay 15).cat.holdReq = none ∧ catLen sSeq 15 .a ≠ 0 ∧
    ((sSlot true).bay 15).cat.queue.length < queuePairs ∧ (sPost.bay 0).cat.queue = okRes false :: [] ∧
    (sPostInj.bay 0).cat.queue = okRes true :: [] ∧
    (sPostLate.bay 0).cat.queue = okRes false :: [okRes true] ∧ (okRes true).conv = (okRes false).conv ∧
    hostOpen up (.catalogue 0) = true ∧ (up.catConv 0 .b).injReq = none := by decide

/-- A queue of results that is full. -/
def sCatFull : State := (sSlot false).modCat 15 fun c => { c with queue := List.replicate 1024 (okRes false) }

theorem wit_catalogue_full : queuePairs ≤ (sCatFull.bay 15).cat.queue.length := by
  have e : (sCatFull.bay 15).cat.queue = List.replicate 1024 (okRes false) := rfl
  rw [e, List.length_replicate]
  decide

/-! ## Accession -/

def sSel : State := { up with acc := { up.acc with sel := vset up.acc.sel 15 0x80000000 } }
def sRun : State := { up with acc := { up.acc with op := .run } }

def sCoreRst : State := { up with mgmt := { up.mgmt with rst := 0x10000, rstTick := 10239 } }

theorem wit_calibrate : hostOpen sSel .accession = true ∧ sSel.acc.op = .idle ∧ domUp sSel 3 = true ∧
    accAny sSel = true ∧ accAny up = false ∧ sRun.acc.op ≠ .idle ∧ viaOpen (.task 3) sCoreRst .accession = true ∧
    sCoreRst.mgmt.rst.getLsbD 16 = true ∧ domUp sCoreRst 3 = true ∧ sSel.mgmt.rst.getLsbD 16 = false := by decide

def sBatch : State := ({ up with acc := { up.acc with
  op := .run, bays := vset up.acc.bays 15 { up.acc.bays[15] with active := true, todo := [0, 31] } } } : State).modCat 15
  fun c => { c with held := true }

theorem wit_batch : domUp sBatch 0 = true ∧ sBatch.acc.op = .run ∧ (sBatch.acc.bays[(15 : BayNo)]).active = true ∧
    (sBatch.acc.bays[(15 : BayNo)]).batch = [] ∧ bayUp sBatch 15 = true ∧ (sBatch.bay 15).cat.held = true ∧
    (sBatch.acc.bays[(15 : BayNo)]).refChecked = false ∧ refOk (accNominal sBatch) (accNominal sBatch) = true ∧
    accOpenSkip sBatch = false ∧ 1 ≤ accBatch sBatch ∧ (sBatch.acc.bays[(15 : BayNo)]).todo ≠ [] ∧
    refOk (accNominal sBatch) 0 = false := by decide

def okHold : CalHold :=
  { heldAt := none, releasedAt := none, batchAt := 10200, new := Coefs.reset, ended := [], failed := none, repeats := []
    retried := false, aborted := false }
def sHoldDue : State := sOn.modChan 0 fun c => { c with hold := some okHold }
def sStep : State := up.modChan 0 fun c => { c with hold := some { okHold with heldAt := some 10224 } }
def sHoldEnd : State := up.modChan 0 fun c => { c with hold := some { okHold with heldAt := some 100, releasedAt := some 10208 } }
def doneHold : CalHold := { okHold with heldAt := some 10160, ended := stepKeys (inBay 0) }
def sPass : State := up.modChan 0 fun c => { c with hold := some doneHold }

theorem wit_hold : bayUp sHoldDue (bayOf 0) = true ∧ (sHoldDue.chan 0).hold = some okHold ∧ okHold.heldAt = none ∧
    onFrame sHoldDue = true ∧ okHold.batchAt < sHoldDue.tick ∧ (sHoldDue.chan 0).force.switch = .on ∧
    (sStep.chan 0).hold = some { okHold with heldAt := some 10224 } ∧ 10224 + 16 ≤ sStep.tick ∧
    stepKey (.vLane 0x400000 0) ∈ stepKeys (inBay 0) ∧ stepKey (.vLane 0x400000 0) ∉ okHold.ended ∧
    (∀ y ∈ okHold.repeats, y.step ≠ stepKey (.vLane 0x400000 0)) ∧
    (∀ q ∈ stepQtys (.vLane 0x400000 0), q.2.1 = false) ∧ (∃ q ∈ stepQtys (.vLane 0x400000 0x7FFF), q.2.1 = true) ∧
    sHoldEnd.tick = 10208 + 32 ∧
    (sPass.chan 0).hold = some doneHold ∧ doneHold.heldAt = some 10160 ∧ doneHold.releasedAt = none ∧
    10160 ≠ sPass.tick ∧ onFrame sPass = true ∧ doneHold.aborted = false ∧
    (sPass.acc.bays[bayOf 0]).railFault = none ∧ stepsEnded 0 doneHold = true ∧ doneHold.failed = none ∧
    sPass.acc.runPend = false := by decide

def sFlash : State := { up with flash := { up.flash with params := some okFlash, use := .free } }
def sBusyAcc : State := { sFlash with acc := { sFlash.acc with op := .store } }
def sAborted : State := { sStep with acc := { sStep.acc with op := .run } }

theorem wit_journal : hostOpen sFlash .accession = true ∧ sFlash.acc.op = .idle ∧ sFlash.flash.use = .free ∧
    jnlAvailable sFlash.flash = true ∧ sFlash.acc.inUse = none ∧ jnlAvailable up.flash = false ∧
    up.flash.use = .free ∧ sBusyAcc.acc.op ≠ .idle ∧ sAborted.acc.op = .run ∧
    (sAborted.chan 0).hold = some { okHold with heldAt := some 10224 } ∧ sBusyAcc.acc.op = .store ∧
    sBusyAcc.acc.bootPend = false ∧ sBusyAcc.acc.runPend = false ∧ sBusyAcc.acc.storePend = false ∧
      sBusyAcc.acc.loadPend = false := by decide

def sStoring : State := { sFlash with
  flash := { sFlash.flash with use := .journal }
  acc := { sFlash.acc with op := .store, base := 0x100000 } }

theorem wit_store : domUp sStoring 0 = true ∧ sStoring.acc.op = .store ∧ sStoring.flash.use = .journal ∧
    storeFits sStoring = true ∧ jnlAvailable sStoring.flash = true ∧ sStoring.acc.seq.toNat < 0xFFFFFFFD := by decide

def sLoading : State := { sStoring with acc := { sStoring.acc with op := .load } }
def sBootLoad : State := { sLoading with acc := { sLoading.acc with bootLoad := true } }

theorem wit_load : domUp sBootLoad 0 = true ∧ sBootLoad.acc.op = .load ∧ sBootLoad.flash.use = .journal ∧
    sBootLoad.acc.bootLoad = true ∧ sBootLoad.acc.picked = false ∧ sLoading.acc.bootLoad = false ∧
    slotPick sLoading.flash sLoading.acc.base = none := by decide

/-! ## Transom, the Shelf queues and the Archive -/

def okSrc : RaisedSrc := { sid := 0x4010, tick := 10238, enterAt := 10240, depth := none }
def sEntry : State := lv (.line 1) 0x8E0 0x00014010 { up with transom := { up.transom with raised := [okSrc] } }
def sHop : State := lv (.line 0) 0x108 0xFFFF404F (lv (.line 0) 0x100 0x00014010
  { up with transom := { up.transom with
    events := [⟨0, 15, 10240⟩], timers := vmod up.transom.timers 15 fun x => { x with running := true } } })
def sDelayed : State := { up with
  transom := { up.transom with lines := vmod up.transom.lines 255 fun x => { x with delayed := some (10240, 3) } } }

theorem wit_transom : domUp sEntry 3 = true ∧ okSrc ∈ sEntry.transom.raised ∧ okSrc.depth = none ∧
    okSrc.enterAt = sEntry.tick ∧ lineEn sEntry 127 = true ∧ lineSrc sEntry 127 = okSrc.sid ∧ lineMode sEntry 127 = 0 ∧
    (sEntry.line 127).lastIn.map Prod.fst ≠ some sEntry.tick ∧ hostOpen sHop .transom = true ∧
    isLineCommit 0x404F = false ∧ hopsDue sHop = [⟨0, 15, 10240⟩] ∧ lineEn sHop 0 = true ∧
    lineDests sHop 0 = [0x404F] ∧ 15 < 16 ∧
    (sDelayed.line 255).delayed = some (sDelayed.tick, 3) := by decide

def sTimer (n : Nat) : State := { up with
  transom := { up.transom with
    timers := vmod up.transom.timers 15 fun x => { x with running := true, nextAt := 10240, period := 5, count := n } } }

theorem wit_timers : hostOpen up .transom = true ∧ (up.timer 15).stopTick ≠ some up.tick ∧ domUp (sTimer 1) 3 = true ∧
    ((sTimer 1).timer 15).running = true ∧ ((sTimer 1).timer 15).nextAt = (sTimer 1).tick ∧
    ((sTimer 1).timer 15).count ≠ 0 ∧ ((sTimer 1).timer 15).count ≤ ((sTimer 1).timer 15).expired.toNat + 1 ∧
    ((sTimer 0).timer 15).count = 0 := by decide

def sWord : State := up.modShelf 15 fun q => { q with passWords := [(10232, 31, 7, true)] }
def sWordFull : State := sWord.modShelf 15 fun q => { q with w := 2048 }
def sRead : State := up.modShelf 15 fun q => { q with slots := [(4095, 9)], rd := 4095, o := 4095, wSeen := 0, oSeen := 4095 }

theorem wit_shelf : pageUp sWord (.shelf 15) = true ∧
    passLeft sWord.tick (sWord.bay 15).shelf = (10232, 31, 7, true) :: [] ∧
    10232 + 2 ≤ sWord.tick ∧ burstNow sWord (sWord.bay 15).shelf < 4 ∧
    posDiff (sWord.bay 15).shelf.w (sWord.bay 15).shelf.o ≠ 2048 ∧
    posDiff (sWordFull.bay 15).shelf.w (sWordFull.bay 15).shelf.o = 2048 ∧ hostOpen up (.shelf 15) = true ∧
    readerFill (up.bay 15).shelf = 0 ∧
    readerFill (sRead.bay 15).shelf ≠ 0 ∧ (sRead.bay 15).shelf.lossPend = false ∧
    slotGet (sRead.bay 15).shelf (sRead.bay 15).shelf.rd = some ((sRead.bay 15).shelf.rd, 9) ∧ 1 ≤ 512 := by decide

def sLost : State := up.modShelf 0 fun q => { q with o := 2047, w := 2048 }
def sFlushSeen : State := up.modShelf 0 fun q => { q with o := 5, w := 5, flushTo := some (5, 0) }
def sTrailRd : State := up.modShelf 0 fun q => { q with rdTrail := [(10238, 5, true)] }
def sTmo : State := lv (.shelf 0) 0x044 1 (up.modShelf 0 fun q => { q with tmoFrom := some 10080 })
def sFlush : State := up.modShelf 0 fun q => { q with flushing := true, w := 4095 }

theorem wit_positions : posDiff (up.bay 0).shelf.o (up.bay 0).shelf.rd = 0 ∧
    0 < posDiff (sLost.bay 0).shelf.o (sLost.bay 0).shelf.rd ∧
    posDiff (sLost.bay 0).shelf.o (sLost.bay 0).shelf.rd < 2048 ∧
    (sLost.bay 0).shelf.flushTo = none ∧ (sFlushSeen.bay 0).shelf.flushTo = some ((sFlushSeen.bay 0).shelf.o, 0) ∧
    (sTrailRd.bay 0).shelf.rdTrail = [(10238, 5, true)] ∧ 10238 + 2 ≤ sTrailRd.tick ∧
    (producerView sTmo.tick (sTmo.bay 0).shelf).tmoFrom = some 10080 ∧ shfTmo sTmo 0 ≠ 0 ∧
    sTmo.tick = 10080 + shfTmo sTmo 0 ∧
    pageUp sFlush (.shelf 0) = true ∧ (sFlush.bay 0).shelf.flushing = true ∧
      itemOpen sFlush.tick (sFlush.bay 0).shelf = false := by
  decide

def fo (f : Folio → Folio) : State := up.modFolio 63 f
def sAdmitted : State := fo fun x => { x with state := 1 }
def sRec : State := fo fun x => { x with state := 4, trigSample := some 2000, s0 := 1900, horizon := 2560 }

theorem wit_folios : hostOpen sAdmitted (folioPage 63) = true ∧ armAllowed (sAdmitted.folio 63) = true ∧
    (sAdmitted.folio 63).stopTick ≠ some sAdmitted.tick ∧ recording (sRec.folio 63) = true ∧
    (sRec.folio 63).last = none ∧ (sRec.folio 63).armTick ≠ some sRec.tick := by decide

def sFilling : State := lv (.folio 7) (folioSlot 63) 0xC0000000 (fo fun x =>
  { x with state := 2, s0 := 2500, preEff := 60, dueAt := 10240 })
def sJudge : State := at_ 10252 (fo fun x =>
  { x with state := 3, s0 := 2500, preEff := 60, postEff := 1, conds := [(15, 64 * 2560 + 63), (3, 64 * 2560)] })
def sComplete : State := fo fun x => { x with state := 4, last := some 2559, dueAt := 10240 }
def sEnds : State := fo fun x => { x with state := 2, endPend := some 5, horizon := 2560 }
def sFlushed (cause : BitVec 4) : State :=
  { fo fun x => { x with state := 5, flushPend := true, endCause := cause, last := some 2500 } with stk := noMem }

theorem wit_triggers : viaOpen .write sFilling (folioPage 63) = true ∧
    folioTrigEn sFilling 63 (trigSource .write) = true ∧
    viaOpen (.task 0) sFilling (folioPage 63) = true ∧ folioTrigEn sFilling 63 (trigSource (.task 0)) = true ∧
    (sFilling.folio 63).state = 2 ∧ pageUp sFilling .archive = true ∧ sFilling.time.toNat = (sFilling.folio 63).dueAt ∧
    sJudge.time.toNat = 4 * 2560 + 12 + judgeLag sJudge 63 ∧ (sJudge.folio 63).state = 3 ∧
    lowestCond ((sJudge.folio 63).conds.filter fun c => c.2 / 64 == 2560) = some (3, 64 * 2560) ∧
    (sJudge.folio 63).s0 + (sJudge.folio 63).preEff ≤ 2560 ∧ (sComplete.folio 63).state = 4 ∧
    sComplete.time.toNat = (sComplete.folio 63).dueAt ∧ recording (sEnds.folio 63) = true ∧
    (sEnds.folio 63).endPend = some 5 ∧ (sEnds.folio 63).last = none ∧ ((sFlushed 0).folio 63).flushPend = true ∧
    memServes (sFlushed 0) = true ∧ ((sFlushed 0).folio 63).last = some 2500 ∧ allPacked (sFlushed 0) 63 2500 = true ∧
    3 ≤ ((sFlushed 4).folio 63).endCause.toNat := by decide

/-- With PD2 off no write is taken. -/
theorem writeReq_off (p : StkPort) (r : StkReq) (e : ReadErrs) (s : State) (h : domUp s 2 = false) :
    writeReq p r e s = s := by
  have u : pageUp s .stk = false := h
  by_cases b : r.bytes.isEmpty = true
  · simp [writeReq, b]
  · simp [writeReq, b, lineAns, h, requestEnter, u]

theorem each_same {α : Type} (l : List α) (f : α → State → State) (s : State) (h : ∀ x, f x s = s) : s.each l f = s := by
  induction l with
  | nil => rfl
  | cons x l ih => rw [State.each, List.foldl_cons, h x]; exact ih

def sFlushOff : State := { sFlushed 0 with power := { up.power with up := 0xFFFFB } }

theorem wit_flushed : (sFlushOff.folio 63).flushPend = true ∧ memServes sFlushOff = true ∧
    pageUp sFlushOff .archive = true ∧ (sFlushOff.folio 63).last = some 2500 ∧ allPacked sFlushOff 63 2500 = true ∧
    writesUnderWay (folioFlush 63 sFlushOff) (.archive 63) = false := by
  have e (s : State) (h : domUp s 2 = false) : writeHeader 63 s = s.modFolio 63 fun x => { x with hdrAt := none } :=
    each_same _ _ _ fun i => writeReq_off 0 _ noErrs _ h
  refine ⟨by decide, by decide, by decide, by decide, by decide, ?_⟩
  have f : flushStreams 63 sFlushOff = sFlushOff := rfl
  simp only [folioFlush, f]
  rw [e]
  · decide
  · decide

/-! ## Stacks -/

def okSub : Sub := { Sub.reset with state := .ready }
/-- Channels 0 and 1 are mapped with 2^28 lines in each of their four subchannels. -/
def sMem : State := { up with
  stk := { Stacks.reset with
    channels := [0, 1], mw := 28, cap := 2 ^ 36, initDone := true, subs := Vector.replicate 16 okSub } }

def okStg : StgWord := { folio := 0, epoch := 0, kind := 0, index := 0, value := 1 }
def sStaging : State := sMem.modChan 511 fun c => { c with stgFast := [okStg], stgPrec := [okStg] }
def sTag : State := { sMem with archive := { sMem.archive with tagBusy := some 3 } }

theorem wit_staging : bayUp sStaging (bayOf 511) = true ∧ pageUp sStaging .archive = true ∧ memServes sStaging = true ∧
    (sStaging.chan 511).stgFast = okStg :: [] ∧ (sStaging.chan 511).stgPrec = okStg :: [] ∧
    (∀ f, (sStaging.folio f).hdrAt = none) ∧ (∀ x ∈ sStaging.stk.waiting, x.1 ≠ 0) ∧
    hostOpen sMem .archive = true ∧ sMem.archive.tagBusy = none ∧ sTag.archive.tagBusy = some 3 ∧
    lineAns sTag 3 = .dram 3 ∧ returnedView sTag.stk .tagRead 3 = none ∧
    (issueNow 5 (readReq .tagRead 3) 3 sTag).isSome = true := by decide

theorem wit_codes : (List.replicate 32 (0xFF : Byte)).length = 32 ∧ 35 < 36 ∧ (1 : Byte) ≠ 0 ∧ (0 : Fin 64) ≠ 63 := by
  decide

/-- MAXQ of P5 is 0, so that no request of it finds room. -/
def sNoRoom : State := lv .stk 0x1A0 0 sMem

theorem wit_requests : wfReq okReq = true ∧ pageUp sMem .stk = true ∧ sMem.stk.sref = false ∧
    memServes sMem = true ∧ sMem.stk.waiting = [] ∧ lineAns sMem okReq.line = .dram 0 ∧ hasRoom sMem 0 5 = true ∧
    wholeLine okReq.bytes = true ∧ memServes sNoRoom = true ∧ lineAns sNoRoom okReq.line = .dram 0 ∧
    hasRoom sNoRoom 0 5 = false ∧ lineAns sMem { okReq with line := 2 ^ 30, write := false }.line = .refused := by decide

def okQ (write : Bool) : QReq :=
  { port := 0, line := 0, write := write, stamp := 0, promoted := false, bank := 0, row := 0, requester := .bar2
    bytes := if write then okReq.bytes else [], bad0 := false, bad1 := false, tag := none, merge := false,
    fetch := false }
def okLine : LineData := { bytes := List.replicate 64 0, bad0 := false, bad1 := false, tag := BitVec.allOnes 56 }
def sQueued (write : Bool) : State := sMem.modSub 0 fun c => { c with queue := [okQ write] }
def sReading : State := sMem.modSub 0 fun c => { c with reads := [(okQ false, okLine)] }

theorem wit_scheduler (w : Bool) : pageUp (sQueued w) .stk = true ∧ canIssue (sQueued w) 0 = true ∧
    NothingWaits (sQueued w) ∧ (∀ f, ((sQueued w).folio f).hdrAt = none) ∧
    (nextReq (promote 0 (sQueued w)) ((promote 0 (sQueued w)).sub 0) []).isSome = true ∧
    (sReading.sub 0).state = .ready ∧ (sReading.sub 0).reads = (okQ false, okLine) :: [] ∧
    sReading.host.bar2Wait = [] := by
  cases w <;> exact ⟨by decide, by decide, ⟨rfl, rfl⟩, by decide, by decide, by decide, rfl, rfl⟩

theorem wit_reads : wfLineErr noErr = true ∧ worst (judge okLine noErr) = .clean ∧
    worst (judge okLine { noErr with tag := 1 }) = .corrected ∧ wfLineErr { noErr with tag := 1 } = true ∧
    (okQ false).fetch = false := by decide

def sScrub : State := at_ 160000 (lv .stk 0x050 1 sMem)
def sSrefDue : State := lv .stk 0x040 0x14 (lv .stk 0x044 1 sMem)
def sSref : State := { sMem with stk := { sMem.stk with sref := true, srefExit := true, subs := vmod sMem.stk.subs 0 fun c => { c with state := .sref } } }

theorem wit_background : pageUp sScrub .stk = true ∧ memServes sScrub = true ∧
    scrubDue sScrub (live sScrub .stk 0x050 0 16) = true ∧ sScrub.stk.scrubTick ≠ some sScrub.tick ∧
    lineAns sScrub (sScrub.stk.scrubPos / 64) = .dram 0 ∧ hasRoom sScrub 0 4 = true ∧
    hostOpen sScrub .stk = true ∧ sScrub.stk.channels.contains 1 = true ∧ (sScrub.sub 2).tempValid = false ∧
    340 < (341 : BitVec 12).toInt ∧ sSrefDue.stk.initDone = true ∧ sSrefDue.stk.sref = false ∧
    sSrefDue.stk.rateBusy = false ∧ srefEn sSrefDue = true ∧ anyRecording sSrefDue = false ∧
    sSrefDue.stk.idleFrom + 160 * live sSrefDue .stk 0x044 0 20 ≤ sSrefDue.tick ∧ sSref.stk.sref = true ∧
    sSref.stk.srefExit = true ∧ (sSref.sub 0).state = .sref ∧ (sSref.sub 0).retryAt = [] := by decide

theorem wit_background_rest : NothingWaits sScrub ∧ NothingWaits sSref := ⟨⟨rfl, rfl⟩, ⟨rfl, rfl⟩⟩

/-- The tick of the first refresh of subchannel 0, whatever the interval is. -/
def sRefresh : State := at_ (refreshEvery okSub) sMem

theorem wit_refresh : pageUp sRefresh .stk = true ∧ (sRefresh.sub 0).state = .ready ∧
    (sRefresh.sub 0).refreshFrom < sRefresh.tick ∧
    (sRefresh.tick - (sRefresh.sub 0).refreshFrom) % refreshEvery (sRefresh.sub 0) = 0 := by
  have e : sRefresh.sub 0 = okSub := rfl
  have t : sRefresh.tick = refreshEvery okSub := rfl
  have f : okSub.refreshFrom = 0 := rfl
  refine ⟨by rfl, by rfl, ?_, ?_⟩
  · rw [e, t, f, refreshEvery]
    omega
  · rw [e, t, f, Nat.sub_zero, Nat.mod_self]

def sTrain (st : SubState) : State := sMem.modSub 15 fun c => { c with state := st }
def sZeroing : State := { sMem with stk := { sMem.stk with zeroing := true, initDone := false } }
def sRetrain : State := sMem.modSub 0 fun c => { c with retrainAt := 10240 }
def sRetry : State := sMem.modSub 0 fun c => { c with retryAt := [10240] }
def sRetryFirst : State := sMem.modSub 0 fun c => { c with retryAt := [10240, 400000] }
def sRate : State := { sMem with stk := { sMem.stk with wantRate := some 1 } }
def sRateBusy : State := { sMem with stk := { sMem.stk with rateBusy := true } }
def sTcStore : State := { sMem with flash := sFlash.flash }
def sTcBusy : State := { sMem with
  stk := { sMem.stk with tcBusy := true }, flash := { sFlash.flash with use := .cache } }

theorem wit_training : hostOpen sMem .stk = true ∧ ((sTrain .train).sub 15).state = .train ∧
    ((sTrain .restore).sub 15).state = .restore ∧ sZeroing.stk.zeroing = true ∧ (sMem.sub 0).state = .ready ∧
    (sRetrain.sub 0).retrainAt = sRetrain.tick ∧ (sRetry.sub 0).retryAt = [sRetry.tick] ∧
    (sRetryFirst.sub 0).retryAt = [sRetryFirst.tick, 400000] ∧ (sRetry.sub 0).state = .ready ∧
    (0x8001 : BitVec 16).getLsbD (15 : Fin 16).val = true ∧ (sMem.sub 15).state ≠ .absent ∧
    sRate.stk.wantRate = some 1 ∧ sRate.stk.initDone = true ∧ sRate.stk.rateBusy = false ∧
    anyRecording sRate = false ∧ sRate.stk.subs.toList.any trains = false ∧ sRateBusy.stk.rateBusy = true ∧
    sTcStore.stk.tcBusy = false ∧ sTcStore.flash.use = .free ∧ sTcBusy.stk.tcBusy = true ∧
    sTcBusy.flash.use = .cache ∧ tcBase sTcBusy + 0x20000 ≤ flashSize sTcBusy.flash ∧ 0 ≤ stkRetry sTcBusy ∧
      stkRetry sTcBusy < 4 := by decide

theorem wit_training_rest : NothingWaits sZeroing ∧ NothingWaits sRetry ∧ NothingWaits sMem ∧ NothingWaits sRateBusy ∧
    sZeroing.stk.initDone = false :=
  ⟨⟨rfl, rfl⟩, ⟨rfl, rfl⟩, ⟨rfl, rfl⟩, ⟨rfl, rfl⟩, rfl⟩

/-! ## The host link, Ndolek, faults, resets and power -/

def sTrained : State := { up with host := { up.host with linkUp := false } }
def sLinked : State := { sOn with host := { sOn.host with linkUp := true, perst := false } }
def sStayOpen : State := lv .host 0x044 0 sLinked
def sCorSeen : State := { up with host := { up.host with corWin := vset up.host.corWin 3 (some 0) } }

theorem wit_link : domUp sTrained 1 = true ∧ (Instr.linkUp 5 8).wf = true ∧ sTrained.host.linkUp = false ∧
    sTrained.host.perst = false ∧ (Instr.linkRateOrWidthChange 1 1).wf = true ∧ sLinked.host.linkUp = true ∧
    liveBit sStayOpen .host 0x044 0 = false ∧ liveBit sLinked .host 0x044 0 = true ∧ bayUp sLinked (bayOf 0) = true ∧
    (sLinked.chan 0).force.switch = .on ∧ up.host.corWin[corIdx .replay] ≠ some (up.tick / 160000) ∧
    sCorSeen.host.corWin[corIdx .replay] = some (sCorSeen.tick / 160000) := by decide

def sAsleep : State := asleep sMem

theorem wit_bar2 : hostOpen sMem .host = true ∧ wfBar2 (.read 4096 [] []) = true ∧ memServes sAsleep = false ∧
    sAsleep.stk.sref = true ∧ wfBar2 (.read 2 [] []) = true ∧ wfBar2 (.write [some 1, some 2] false []) = true := by
  decide

theorem wit_bar2_free : MemoryFree sMem (bar2Addr sMem 63) 2 ∧ ∀ l, returnedView sMem.stk .bar2 l = none := by
  refine ⟨⟨?_, by decide, ⟨rfl, rfl⟩⟩, fun _ => rfl⟩
  show ∀ l, l ∈ linesOf (bar2Addr sMem 63) 2 → ∃ i, lineAns sMem l = .dram i ∧ canIssue sMem i = true ∧
    (sMem.sub i).queue = [] ∧ (sMem.sub i).reads = []
  decide

def sQueue15 (st : QState) : State := up.modDma 15 fun x => { x with state := st, tail := 1 }
def sMaster (st : QState) : State := (sQueue15 st).modHost fun h => { h with bme := true }

theorem wit_dma_requests : hostOpen up (dmaPage 15) = true ∧ ((sQueue15 .halted).dmaQ 15).state ≠ .idle ∧
    ((sQueue15 .idle).dmaQ 15).state = .idle ∧ ((sQueue15 .halted).dmaQ 15).state = .halted ∧
    ((sQueue15 .active).dmaQ 15).state = .active ∧ ((sMaster .halted).dmaQ 15).head ≠ ((sMaster .halted).dmaQ 15).tail ∧
    (sMaster .halted).host.bme = true ∧ ((sQueue15 .paused).dmaQ 15).state = .paused := by decide

def sVector : State := up.modHost fun h =>
  { h with msixEn := true, msix := vmod h.msix 63 fun e => { e with pend := true } }

theorem wit_msix : domUp sVector 1 = true ∧ hostOpen sVector .msix = true ∧ sVector.host.msixEn = true ∧
    sVector.host.funcMask = false ∧ sVector.host.msix[(63 : Fin 64)].pend = true ∧
    up.host.msix[(63 : Fin 64)].pend = false := by decide

def sH2d : State := { sMaster .active with stk := sMem.stk }
def sD2h : State := lv (dmaPage 15) (dmaSlot 15) 0x00000003 sH2d
def sShelfQ : State := lv (dmaPage 15) (dmaSlot 15) 0x00000005 sH2d
def sShelfFull : State := sShelfQ.modShelf 0 fun q =>
  { q with slots := (List.range 8).map fun i => (BitVec.ofNat 12 i, 7), w := 8, wSeen := 8 }
def okDesc : Descriptor := readDesc (ringEntry 32 1)
def sShelfOld : State := (lv (.shelf 0) 0x044 1 sShelfQ).modDma 15 fun x =>
  { x with cur := some okDesc, taken := [7], lastTake := 10080 }

theorem wit_descriptors : pageUp sD2h (dmaPage 15) = true ∧ (sD2h.dmaQ 15).state = .active ∧
    (Instr.descriptorComplete 15 (ringEntry 32 1) noData).wf = true ∧ sD2h.host.bme = true ∧ (sD2h.dmaQ 15).cur = none ∧
    badDesc (dmaType sD2h 15 == 2) (readDesc (ringEntry 0 1)) = true ∧ badDesc false okDesc = false ∧
    dmaType sD2h 15 = 1 ∧ dmaType sH2d 15 = 0 ∧ memServes sD2h = true ∧ descIrq okDesc = true ∧
    badDesc false (readDesc (ringEntry 8192 0)) = false ∧ 4096 < (readDesc (ringEntry 8192 0)).length.toNat ∧
    badDesc true okDesc = false ∧ dmaType sShelfQ 15 = 2 ∧ pageUp sShelfQ (.shelf (dmaBay sShelfQ 15)) = true ∧
    readerFill (sShelfFull.bay (dmaBay sShelfFull 15)).shelf = okDesc.length.toNat / 4 ∧
    (sShelfOld.dmaQ 15).cur = some okDesc ∧ (sShelfOld.dmaQ 15).taken ≠ [] ∧
    shfTmo sShelfOld (dmaBay sShelfOld 15) ≠ 0 ∧
    (sShelfOld.dmaQ 15).lastTake + shfTmo sShelfOld (dmaBay sShelfOld 15) ≤ sShelfOld.tick ∧
    readerFill (sShelfOld.bay (dmaBay sShelfOld 15)).shelf = 0 := by decide

theorem wit_descriptors_free : (MemoryFree sD2h 0 8192 ∧ ∀ l, returnedView sD2h.stk (.dma 15) l = none) ∧
    MemoryFree sH2d 0 32 ∧ ∀ l, returnedView sH2d.stk (.dma 15) l = none := by
  refine ⟨⟨⟨?_, by decide, ⟨rfl, rfl⟩⟩, fun _ => rfl⟩, ⟨?_, by decide, ⟨rfl, rfl⟩⟩, fun _ => rfl⟩
  · show ∀ l, l ∈ linesOf 0 8192 → ∃ i, lineAns sD2h l = .dram i ∧ canIssue sD2h i = true ∧
      (sD2h.sub i).queue = [] ∧ (sD2h.sub i).reads = []
    decide
  · show ∀ l, l ∈ linesOf 0 32 → ∃ i, lineAns sH2d l = .dram i ∧ canIssue sH2d i = true ∧
      (sH2d.sub i).queue = [] ∧ (sH2d.sub i).reads = []
    decide

def nd (f : Ndolek → Ndolek) : State := { up with ndolek := f up.ndolek }
def okEdge : HeldEdge := { e := 0xFFFFFFF, merged := true, tries := 0 }
def sSend : State := nd fun n =>
  { n with state := .root, downLink := true, down := { n.down with held := vset n.down.held 7 [okEdge] } }
def sJoin : State := nd fun n => { n with state := .linking, upLink := true, rxSeqUp := some 255 }
def okFrame : Frame :=
  { fseq := 0, nseq := 0, nack := false, lag := 110, hop := 31, frameTick := 512
    trig := Vector.replicate 8 { e := 0, merged := false, rise := false, state := false }
    msg := none, echo := 0, turn := 0, p := 0 }

def sJoinBad : State := nd fun n => { n with state := .linking, upLink := true, badUp := 63 }
def sOwnMsg : State := nd fun n => { n with upLink := true, txMsg := some n.msgTx }

theorem wit_frames : sSend.locked = true ∧ sendsOn sSend .down = true ∧
    frameTickOf (frameNo sSend.time.toNat) = sSend.time.toNat ∧
    (ndkTx sSend.ndolek .down).lastFrame ≠ some sSend.tick ∧ sSend.ndolek.txMsg = none ∧
    (ndkTx sSend.ndolek .down).held[(7 : Fin 8)] = okEdge :: [] ∧ sendsOn sOwnMsg .up = true ∧
    msgOut sOwnMsg .up = false ∧ (ndkTx sOwnMsg.ndolek .up).msgs = [] ∧ (Port.up == .up) ≠ isRoot sOwnMsg ∧
    sOwnMsg.ndolek.txMsg = some sOwnMsg.ndolek.msgTx ∧ isRoot sOwnMsg = false ∧
    portLink sJoin.ndolek .up = true ∧ rxBad sJoin.ndolek .up < 63 ∧ rxSeq sJoin.ndolek .up = some 255 ∧
    63 ≤ rxBad sJoinBad.ndolek .up ∧ sJoin.ndolek.upLink = true ∧ sJoin.ndolek.state = .linking ∧
    sJoin.ndolek.long = false ∧ sJoin.ndolek.joined = false := by decide

def okBody : List Byte := frameBody okFrame

theorem okBody_length : okBody.length = 76 := by decide

theorem wit_frame_bytes : okBody.length = 76 ∧ frameCrcOk (frameWire okBody (crc32 okBody)) = true ∧
    (readFrame (frameWire okBody (crc32 okBody))).hop.toNat < 32 := by
  refine ⟨?_, ?_, by decide⟩
  · exact okBody_length
  · show (leNat ((okBody ++ leBytes 4 (crc32 okBody).toNat).drop 0x4C) ==
      (crc32 ((okBody ++ leBytes 4 (crc32 okBody).toNat).take 0x4C)).toNat) = true
    rw [List.drop_left' okBody_length, List.take_left' okBody_length, leNat_leBytes]
    simpa using Nat.mod_eq_of_lt (crc32 okBody).isLt

/-- The frame with another number in the place of its CRC. -/
theorem wit_bad_frame : okBody.length = 76 ∧ frameCrcOk (frameWire okBody (crc32 okBody + 1)) = false := by
  refine ⟨okBody_length, ?_⟩
  have n := (crc32 okBody).isLt
  simp only [frameCrcOk, frameWire]
  rw [List.drop_left' okBody_length, List.take_left' okBody_length, leNat_leBytes]
  have one : BitVec.toNat (1 : Word) = 1 := rfl
  simp only [beq_eq_false_iff_ne, ne_eq, BitVec.toNat_add, one]
  omega

def sWaiting : State := nd fun n => { n with txMsg := some n.msgTx, rx := [#v[1, 2, 3, 4]] }

theorem wit_messages : hostOpen up .ndolek = true ∧ up.ndolek.txMsg = none ∧ sWaiting.ndolek.txMsg ≠ none ∧
    sWaiting.ndolek.rx = #v[1, 2, 3, 4] :: [] ∧ up.ndolek.rx = [] := by decide

def sStepTo : State := nd fun n => { n with state := .measuring, stepTo := some (-5), lagNext := some 110 }
def sRoot : State := nd fun n => { n with state := .root, loadReq := true }
def sGood : State := nd fun n => { n with state := .measuring, measured := true, superWhole := true, goodRun := 63 }

theorem wit_super : onMult sStepTo 512 = true ∧ sStepTo.ndolek.lastSuper ≠ some sStepTo.tick ∧ isRoot sRoot = true ∧
    sRoot.ndolek.loadReq = true ∧ isRoot sStepTo = false ∧ sStepTo.ndolek.lagNext = some 110 ∧
    sStepTo.ndolek.stepTo = some (-5) ∧ up.ndolek.stepTo = none ∧ pageUp sStepTo .ndolek = true ∧
    superGood sGood.ndolek = true ∧ steers sGood.ndolek = true ∧ 63 ≤ sGood.ndolek.goodRun ∧
    onMult sGood 512 = true ∧ sGood.ndolek.lastSuper ≠ some sGood.tick ∧ isRoot sGood = false ∧ archiveOn sGood = true ∧
    hostOpen sRoot .ndolek = true ∧ portLink sJoin.ndolek .up = true ∧ sJoin.ndolek.state ≠ .root ∧
    portLink up.ndolek .up = false ∧ portLink sSend.ndolek .down = true := by decide

def sAligned : State := nd fun n => { n with state := .aligned, everAligned := true }
def sDriven : State := nd fun n => { n with drive := vset n.drive 7 (some 10240) }
def sEdge : State := lv (.folio 7) (folioSlot 63) 0x08000000 (nd fun n =>
  { n with state := .aligned, raise := vset n.raise 7 [{ e := 163835, at_ := 10240 }, { e := 163845, at_ := 10241 }] })
def sPin : State := { up with archive := { up.archive with pinEdge := vset up.archive.pinEdge 3 (some 163808) } }

theorem wit_lines : hostOpen up .ndolek = true ∧ linkAligned up = false ∧ linkAligned sAligned = true ∧
    isRoot sAligned = false ∧ driving sAligned 7 = false ∧ (ndkTx sAligned.ndolek .up).held[(7 : Fin 8)] = [] ∧
    sDriven.ndolek.drive[(7 : Fin 8)] = some sDriven.tick ∧ linkAligned sEdge = true ∧
    edgesNow sEdge 7 = [{ e := 163835, at_ := 10240 }] ∧ domUp sEdge 3 = true ∧ archiveOn sEdge = true ∧
    folioTrigEn sEdge 63 (4 + (7 : Fin 8).val) = true ∧ (0 : Int) ≤ 163835 ∧
    sEdge.time.toNat < 4 * ((163835 : Int).toNat / 64) + 12 + judgeLag sEdge 63 ∧ archiveOn sPin = true ∧
    sPin.locked = true ∧ pinSelects sPin 3 false = false ∧ pinSelects sPin 3 true = true ∧
    pinStood sPin 3 (16 * sPin.tick + (0 : Fin 16).val) = true := by decide

def okEntry (cls : BitVec 2) : LogEntry := { LogEntry.reset with code := 0x80, cls := cls }
def sDetected (cls : BitVec 2) : State := { up with mgmt := { up.mgmt with detected := [(10239, okEntry cls)] } }
def sUnread : State := { sDetected 1 with mgmt := { (sDetected 1).mgmt with fltSeq := 256, firstValid := true } }

theorem wit_fault_log : up.power.powered = true ∧ hostOpen up .device = true ∧ pageUp up .device = true ∧
    logNext (sDetected 1).mgmt.detected = some (10239, okEntry 1) ∧ 10239 < (sDetected 1).tick ∧ (okEntry 1).cls = 1 ∧
    (sDetected 1).mgmt.firstValid = false ∧ ((sDetected 1).mgmt.fltSeq - (sDetected 1).mgmt.fltAck).toNat < 256 ∧
    256 ≤ (sUnread.mgmt.fltSeq - sUnread.mgmt.fltAck).toNat ∧ sUnread.mgmt.firstValid = true ∧
    logNext sUnread.mgmt.detected = some (10239, okEntry 1) := by decide

def sRst (m : BitVec 19) : State := { sOn with mgmt := { sOn.mgmt with rst := m, rstTick := 10224 } }

theorem wit_resets : hostOpen sOn .device = true ∧ bayUp sOn 0 = true ∧ sOn.mgmt.rst = 0 ∧ bayOf 0 = 0 ∧
    (sOn.chan 0).force.switch = .on ∧ bayUp sOff 0 = false ∧ hostOpen sOff .device = true ∧ domUp sOn 3 = true ∧
    domUp sOn 2 = true ∧ domUp sOn 1 = true ∧ (sRst 0x40000).mgmt.rst = 0x40000 ∧ onFrame (sRst 0x40000) = true ∧
    (sRst 0x40000).mgmt.rstTick + 16 ≤ (sRst 0x40000).tick ∧
    (sRst 0x40000).tick < (sRst 0x40000).mgmt.rstTick + 96 ∧
    (sRst 1).mgmt.rst = (1 : BitVec 19) <<< (0 : BayNo).val ∧ bayUp (sRst 1) 0 = true := by decide

def pw (f : Power → Power) : State := { up with power := f up.power }
def sNext (on : Bool) : State := pw fun p =>
  { p with queue := [19], queueTick := 10240, up := if on then 3 else p.up, ctl := if on then p.ctl else 3 }
def sNoVana : State := { sNext true with power := { (sNext true).power with vana := false } }
def sSwitching (on : Bool) (t : Nat) : State := pw fun p => { p with current := some (19, on, t) }

theorem wit_domains : up.power.powered = true ∧ hostOpen up .device = true ∧ (sNext true).locked = true ∧
    (sNext true).power.current = none ∧ (sNext true).power.queueTick = (sNext true).tick ∧
    (sNext true).power.queue = 19 :: [] ∧ (sNext true).power.ctl.getLsbD (19 : Fin 20).val = true ∧
    (sNext true).power.vana = true ∧ 4 ≤ (19 : Fin 20).val ∧ sNoVana.power.vana = false ∧
    (sNext false).power.ctl.getLsbD (19 : Fin 20).val = false ∧
    (sSwitching true 8640).power.current = some (19, true, 8640) ∧ (sSwitching true 8640).power.bootState = 5 ∧
    onFrame (sSwitching true 8640) = true ∧ 8640 + 1600 ≤ (sSwitching true 8640).tick ∧
    (sSwitching true 8640).tick < 8640 + 1680 ∧ domainBay 19 = some 15 ∧
    (sSwitching false 10208).power.current = some (bayDomain 15, false, 10208) ∧
    (sSwitching false 10208).tick = 10208 + 32 ∧ (sSwitching false 10208).power.opened = false ∧
    (sSwitching false 8640).tick = 8640 + 1600 := by decide

def sCold : State := State.reset
def sUnlocked (st : BitVec 3) : State := { (pw fun p => { p with bootState := st }) with locked := false }
def sFlashBoot : State := { sUnlocked 1 with flash := { sFlash.flash with use := .boot } }
def sPreload : State := pw fun p => { p with bootState := 4, preload := [(0x060040, 5), (0x060044, 6)] }

theorem wit_boot : (Instr.devicePowerUp ⟨true, false, 0⟩ none).wf = true ∧ sCold.power.powered = false ∧
    sCold.power.vio = true ∧ (sUnlocked 2).power.powered = true ∧ (sUnlocked 2).locked = false ∧
    (sUnlocked 2).power.bootState ≠ 3 ∧ (sUnlocked 1).power.bootState = 1 ∧ pageUp (sUnlocked 1) .device = true ∧
    (sUnlocked 1).flash.params = none ∧ sFlashBoot.flash.params.isSome = true ∧ bootValid sFlashBoot.flash = false ∧
    sPreload.power.bootState = 4 ∧ sPreload.power.waitCommit = none ∧
    sPreload.power.preload = (0x060040, 5) :: (0x060044, 6) :: [] := by decide

theorem wit_supplies : up.power.powered = true ∧ up.power.vio = true ∧ up.power.vcore = true ∧ up.power.vddq = true ∧
    up.power.vana = true ∧ pageUp up .device = true := by decide

def sFlashOp (op len : Nat) : State := { sFlash with
  flash := { sFlash.flash with use := .host (setField (setField 0 0 2 op) 8 9 len) 0xFF0 } }

theorem wit_flash : hostOpen sFlash .device = true ∧ sFlash.flash.use = .free ∧ sStoring.flash.use ≠ .free ∧
    (sFlashOp 1 16).flash.use = .host (setField (setField 0 0 2 1) 8 9 16) 0xFF0 ∧ (sFlashOp 1 16).flash.queue = [] ∧
    flBad (sFlashOp 0 256).flash (setField (setField 0 0 2 0) 8 9 256) 0xFF0 = false ∧
    flBad (sFlashOp 1 16).flash (setField (setField 0 0 2 1) 8 9 16) 0xFF0 = false ∧
    flBad (sFlashOp 2 16).flash (setField (setField 0 0 2 2) 8 9 16) 0xFF0 = false ∧
    0xFF0 + flLen (setField (setField 0 0 2 0) 8 9 256) ≤ flashSize (sFlashOp 0 256).flash ∧
    pageUp (sFlashOp 0 1) .device = true := by decide

theorem wit_sweep_fetch : swpFailed sSweepRun 0 (swpNext sSweepRun 0 (sSweepRun.chan 0).prog.index.toNat) = false ∧
    swpFailed sDwell 0 (swpNext sDwell 0 (sDwell.chan 0).prog.index.toNat) = false := by decide

/-! ## One step on a small state -/

/-- The field of a next state. -/
def after {α : Type} (o : Host.Outcome State Fault Refusal) (f : State → α) : Option α :=
  match o with
  | .next t => some (f t)
  | _ => none

/-- The check value of CRC-32 (R262 takes the code of IEEE 802.3): "123456789". -/
theorem test_crc32 : crc32 [0x31, 0x32, 0x33, 0x34, 0x35, 0x36, 0x37, 0x38, 0x39] = 0xCBF43926 := by decide

theorem test_evt_clear : after (exec (.evtClear .stk 0x5) (up.modPage .stk fun h => { h with evt := 0x7 }))
    (fun t => (t.page .stk).evt) = some 2 := by decide

theorem test_register_write_masks_draft : after (exec (.registerWrite 0x060040 [0xFFFFFFFF] true) up)
    (fun t => draftWord t .lintel 0x040) = some 0x0003FFFF := by decide

theorem test_register_write_partial : after (exec (.registerWrite 0x060040 [5] false) up)
    (fun t => (t.mgmt.accCause, t.mgmt.accAddr)) = some (2, 0x060040) := by decide

theorem test_commit_takes_drafts : after (exec (.commitGo .lintel) sEnabled)
    (fun t => (t.page .lintel).captured.isSome) = some true := by decide

theorem test_flr_sets_event : after (exec .flr up) (fun t => (t.page .host).evt.getLsbD 6) = some true := by decide

theorem test_link_down : after (exec .linkDown sLinked) (fun t => (t.host.linkUp, (t.chan 0).force.switch)) =
    some (false, .closing 10240) := by decide

theorem test_timer_counts : after (exec (.timerExpiry 15) (sTimer 5)) (fun t => ((t.timer 15).expired,
    (t.timer 15).nextAt)) =
    some (1, 10245) := by decide

/-- R387: HOST_ADDR, DEV_ADDR, LENGTH and CTRL lie at 0x00, 0x08, 0x10 and 0x14, little-endian. -/
theorem test_descriptor_layout : readDesc (ringEntry 0x01020304 3) =
    { hostAddr := 0x1000, devAddr := 0, length := 0x01020304, ctrl := 3 } := by decide

/-- R404: byte 3 of a frame is 0xA5, and LAG and HOP lie at 0x04 and 0x06. -/
theorem test_frame_layout : (frameBytes okFrame)[3]? = some 0xA5 ∧ (frameBytes okFrame)[4]? = some 110 ∧
    (frameBytes okFrame)[6]? = some 31 := by decide

/-- R379: Vendor ID 0x1E7A and Class Code 0x118000 in the configuration header. -/
theorem test_config_header : (configWord up 0).extractLsb' 0 16 = 0x1E7A ∧
    (configWord up 2).extractLsb' 8 24 = 0x118000 := by
  decide

/-- R377: bit k of STK_XOR_k reads 1 whatever is written. -/
theorem test_xor_reads_one : after (exec (.registerWrite 0x0300A8 [0] true) up) (fun t => draftWord t .stk 0x0A8) =
    some 4 := by
  decide

theorem test_bar2_base : after (exec (.bar2BaseWrite 0xFFFFFFFF) sMem) (fun t => t.host.bar2Base) = some 0x7FF :=
    by decide

theorem test_dma_doorbell : after (exec (.doorbell 15 3) (up.modDma 15 fun x => { x with state := .idle }))
    (fun t => (t.dmaQ 15).state) = some .paused := by decide

theorem test_supply_vio : after (exec (.supply .vio) up) (fun t => (t.power.powered, t.power.vio)) = some (false,
    false) := by
  decide

/-! ## Hypotheses on canonical stores and on the flash are met -/

/-- A state whose sparse stores and page headers are those of the small one. -/
theorem canon_as_up (t : State) (p : t.pages = up.pages) (b : ∀ b, (t.bay b).lists = [])
    (m : t.stk.mem = []) (g : t.stk.tags = []) (f : t.flash.bytes = []) : CanonicalStores t :=
  canon_like t m g f b (pages_like t p)

theorem canon_pair (p : Page) (x : PairSt) : CanonicalStores (putPair p x up) := by
  refine canon_like _ rfl rfl rfl lists_up ?_
  exact pages_mod up p _ canon_up.pages (by rw [up_page]; simp [hdrWf, PageHdr.reset, storeWf, sparseWf])

theorem wit_canon_pairs : CanonicalStores sHeldTag ∧ CanonicalStores sHeldList := ⟨canon_pair _ _, canon_pair _ _⟩

theorem wit_canon_lists : CanonicalStores sAutoInc := by
  refine canon_as_up _ rfl ?_ rfl rfl rfl
  intro b
  by_cases e : b = 15
  · subst e; rfl
  · exact (congrArg Bay.lists (State.bay_modBay_ne up 15 b _ e)).trans (lists_up b)

theorem wit_canon_memory : CanonicalStores sMem ∧ CanonicalStores sStoring ∧ CanonicalStores sTcBusy ∧
    (∀ op len, CanonicalStores (sFlashOp op len)) :=
  ⟨canon_as_up _ rfl lists_up rfl rfl rfl, canon_as_up _ rfl lists_up rfl rfl rfl,
    canon_as_up _ rfl lists_up rfl rfl rfl, fun _ _ => canon_as_up _ rfl lists_up rfl rfl rfl⟩

/-- A flash with a valid slot 0 of the journal, its records erased. -/
def jnlHead : List Byte := leBytes 4 0x00C00001 ++ leBytes 4 1 ++ leBytes 8 Config.uid.toNat
def jnlF0 : Flash := flashPut { up.flash with params := some okFlash, use := .journal } 0x100000 jnlHead
def jnlF1 : Flash := flashPut jnlF0 0x118040 (leBytes 4 (crc32 (flashBytes jnlF0 0x100000 0x18040)).toNat)
def jnlF2 : Flash := flashPut jnlF1 0x11FF00 (commitWord 1)

theorem jnl_wf0 : flashWf jnlF0 = true := flashPut_wf _ _ _ (by decide)
theorem jnl_wf1 : flashWf jnlF1 = true := flashPut_wf _ _ _ jnl_wf0

theorem jnlHead_length : jnlHead.length = 16 := by simp [jnlHead]

theorem jnl_head : flashBytes jnlF2 0x100000 16 = jnlHead := by
  have e := flashBytes_put { up.flash with params := some okFlash, use := .journal } 0x100000 jnlHead (by decide)
  rw [jnlHead_length] at e
  rw [jnlF2, flashBytes_put_ne _ _ _ _ _ jnl_wf1 (by simp), jnlF1, flashBytes_put_ne _ _ _ _ _ jnl_wf0 (by simp)]
  exact e

theorem jnl_seq : flashNat jnlF2 0x100000 4 = 0x00C00001 ∧ flashNat jnlF2 0x100004 4 = 1 ∧
    flashNat jnlF2 0x100008 8 = Config.uid.toNat := by
  refine ⟨?_, ?_, ?_⟩
  · rw [flashNat, flashBytes_part jnlF2 0x100000 16 0 4 (by decide), jnl_head]
    rfl
  · rw [flashNat, flashBytes_part jnlF2 0x100000 16 4 4 (by decide), jnl_head]
    rfl
  · rw [flashNat, flashBytes_part jnlF2 0x100000 16 8 8 (by decide), jnl_head]
    have e : (jnlHead.drop 8).take 8 = leBytes 8 Config.uid.toNat := rfl
    rw [e, leNat_leBytes]
    exact Nat.mod_eq_of_lt Config.uid.isLt

theorem jnl_crc : flashNat jnlF2 0x118040 4 = (crc32 (flashBytes jnlF2 0x100000 0x18040)).toNat := by
  rw [jnlF2, flashNat_put_ne _ _ _ _ _ jnl_wf1 (by simp), flashBytes_put_ne _ _ _ _ _ jnl_wf1 (by simp), jnlF1,
    flashNat_put _ _ _ _ jnl_wf0, flashBytes_put_ne _ _ _ _ _ jnl_wf0 (by simp)]
  exact Nat.mod_eq_of_lt (crc32 _).isLt

theorem jnl_commit : flashBytes jnlF2 0x11FF00 4 = commitWord 1 := flashBytes_put jnlF1 0x11FF00 (commitWord 1) jnl_wf1

theorem jnl_valid : slotState jnlF2 0x100000 = 0 := by
  have a : jnlAvailable jnlF2 = true := by
    have e : jnlF2.params = some okFlash := rfl
    rw [jnlAvailable, e]; decide
  simp [slotState, a, jnl_seq, jnl_commit, jnl_crc]

/-- The slot in use after a load of the journal. -/
theorem wit_journal_slot : ∃ i, slotPick jnlF2 0x100000 = some i := by
  have e : slotState jnlF2 (jnlSlot 0x100000 0) = 0 := jnl_valid
  simp only [slotPick, e]
  cases slotState jnlF2 (jnlSlot 0x100000 1) with
  | zero => simp only []; split <;> exact ⟨_, rfl⟩
  | succ n => exact ⟨0, rfl⟩

def sJnl (boot : Bool) : State :=
  { up with flash := jnlF2, acc := { up.acc with op := .load, bootLoad := boot, base := 0x100000 } }

theorem wit_journal_loads (boot : Bool) : domUp (sJnl boot) 0 = true ∧ (sJnl boot).acc.op = .load ∧
    (sJnl boot).flash.use = .journal ∧ (sJnl boot).acc.bootLoad = boot ∧ (sJnl boot).acc.picked = false ∧
    (∃ i, slotPick (sJnl boot).flash (sJnl boot).acc.base = some i) :=
  ⟨by cases boot <;> decide, rfl, rfl, rfl, rfl, wit_journal_slot⟩

/-- A flash with a boot record of two preload entries. -/
def bootHead : List Byte := leBytes 4 0x4A584252 ++ leBytes 2 1 ++ leBytes 2 2
def bootF0 : Flash := flashPut { up.flash with params := some okFlash, use := .boot } 0 bootHead
def bootF1 : Flash := flashPut bootF0 0xFFC (leBytes 4 (crc32 (flashBytes bootF0 0 0xFFC)).toNat)

theorem boot_wf0 : flashWf bootF0 = true := flashPut_wf _ _ _ (by decide)

theorem boot_head : flashBytes bootF1 0 8 = bootHead := by
  have e := flashBytes_put { up.flash with params := some okFlash, use := .boot } 0 bootHead (by decide)
  rw [bootF1, flashBytes_put_ne _ _ _ _ _ boot_wf0 (by simp)]
  exact e

theorem wit_boot_record : bootValid bootF1 = true := by
  have c : flashNat bootF1 0xFFC 4 = (crc32 (flashBytes bootF1 0 0xFFC)).toNat := by
    rw [bootF1, flashNat_put _ _ _ _ boot_wf0, flashBytes_put_ne _ _ _ _ _ boot_wf0 (by simp)]
    exact Nat.mod_eq_of_lt (crc32 _).isLt
  have m : flashNat bootF1 0 4 = 0x4A584252 := by
    have e := flashBytes_part bootF1 0 8 0 4 (by decide)
    rw [boot_head] at e
    exact congrArg leNat e
  have v : flashNat bootF1 4 2 = 1 := by
    have e := flashBytes_part bootF1 0 8 4 2 (by decide)
    rw [boot_head] at e
    exact congrArg leNat e
  have n : flashNat bootF1 6 2 = 2 := by
    have e := flashBytes_part bootF1 0 8 6 2 (by decide)
    rw [boot_head] at e
    exact congrArg leNat e
  simp [bootValid, c, m, v, n]

def sBoot : State := { sUnlocked 1 with flash := bootF1 }

theorem wit_boot_preload : sBoot.power.powered = true ∧ sBoot.power.bootState = 1 ∧ pageUp sBoot .device = true ∧
    sBoot.flash.params.isSome = true ∧ bootValid sBoot.flash = true ∧ sBoot.locked = false :=
  ⟨rfl, rfl, by decide, rfl, wit_boot_record, rfl⟩

/-- The beats of a line with the tag of R346's example: check bytes of both codewords, the tag bytes on beats 8 to 14
(R345). -/
theorem test_line_burst :
    ((lineBurst { bytes := List.replicate 64 0, bad0 := true, bad1 := false, tag := 0x3500007D2B7560 }).map
      Prod.snd).take 15 = [255, 255, 255, 255, 0, 0, 0, 0, 0x60, 0x75, 0x2B, 0x7D, 0x00, 0x00, 0x35] := by
  decide

end Sys2Proof.Tests
end

section
/-! PROOFS. Commits (chapter 2, R36 to R49): what takes effect at a commit leaves every page header as it is, but for
event bits that rise. -/

namespace Sys2Proof.Machine

/-! ## Headers in which only event bits rise -/

/-- From the headers `v` to the headers `w` event bits rise, and nothing else changes. -/
def EventsRise (v w : Vector PageHdr 601) : Prop :=
  ∀ p : Page,
    w[pageIndex p] =
      { v[pageIndex p] with
        evt := w[pageIndex p].evt, setTick := w[pageIndex p].setTick, setBits := w[pageIndex p].setBits } ∧
    v[pageIndex p].evt &&& w[pageIndex p].evt = v[pageIndex p].evt

@[simp] theorem EventsRise.refl (v : Vector PageHdr 601) : EventsRise v v := fun _ => ⟨rfl, BitVec.and_self⟩

theorem EventsRise.trans {u v w : Vector PageHdr 601} (a : EventsRise u v) (b : EventsRise v w) : EventsRise u w :=
  fun p => by
    obtain ⟨hdr, evt⟩ := a p
    obtain ⟨hdr', evt'⟩ := b p
    refine ⟨by rw [hdr', hdr], ?_⟩
    rw [← evt, BitVec.and_assoc, evt']

theorem ReportsOnly.eventsRise {s t : State} (h : ReportsOnly s t) : EventsRise s.pages t.pages :=
  fun p => ⟨h.pages p, h.evt p⟩

/-- An event bit that is 1 stays 1. -/
theorem EventsRise.evtOn {s t : State} (h : EventsRise s.pages t.pages) {p : Page} {n : Nat} (on : evtOn s p n) :
    evtOn t p n := by
  have e : (s.page p).evt &&& (t.page p).evt = (s.page p).evt := (h p).2
  have on' : ((s.page p).evt &&& (t.page p).evt).getLsbD n = true := by rw [e]; exact on
  rw [BitVec.getLsbD_and, Bool.and_eq_true] at on'
  exact on'.2

/-! ## Changes that reach no page header -/

theorem pages_ite {c : Prop} [Decidable c] {s t u : State} (yes : t.pages = s.pages) (no : u.pages = s.pages) :
    (if c then t else u).pages = s.pages := by
  split
  · exact yes
  · exact no

section
variable (s : State)

@[simp] theorem State.modForce_pages (g : ChanNo) (f : Force → Force) : (s.modForce g f).pages = s.pages := rfl
@[simp] theorem State.modSlew_pages (g : ChanNo) (f : Slew → Slew) : (s.modSlew g f).pages = s.pages := rfl
@[simp] theorem State.modProg_pages (g : ChanNo) (f : Prog → Prog) : (s.modProg g f).pages = s.pages := rfl
@[simp] theorem State.modLoop_pages (g : ChanNo) (f : Loop → Loop) : (s.modLoop g f).pages = s.pages := rfl
@[simp] theorem State.modMeas_pages (g : ChanNo) (f : Meas → Meas) : (s.modMeas g f).pages = s.pages := rfl
@[simp] theorem State.modRes_pages (g : ChanNo) (f : Res → Res) : (s.modRes g f).pages = s.pages := rfl
@[simp] theorem State.modShelf_pages (b : BayNo) (f : ShelfQ → ShelfQ) : (s.modShelf b f).pages = s.pages := rfl
@[simp] theorem State.modConv_pages (b : BayNo) (k : Conv) (f : CatConv → CatConv) :
    (s.modConv b k f).pages = s.pages := rfl
@[simp] theorem State.modFolio_pages (k : Fin 64) (f : Folio → Folio) : (s.modFolio k f).pages = s.pages := rfl
@[simp] theorem State.modDma_pages (q : Fin 16) (f : DmaQ → DmaQ) : (s.modDma q f).pages = s.pages := rfl
@[simp] theorem State.modLine_pages (n : Fin 256) (f : Line → Line) : (s.modLine n f).pages = s.pages := rfl

@[simp] theorem State.modWin_pages (g : ChanNo) (w : Win) (f : Window → Window) :
    (s.modWin g w f).pages = s.pages := by
  cases w <;> rfl

@[simp] theorem noteShut_pages (g : ChanNo) (t : Nat) : (noteShut g t s).pages = s.pages := rfl
@[simp] theorem changeSlew_pages (g : ChanNo) (f : Slew → Slew) : (changeSlew s g f).pages = s.pages := rfl
@[simp] theorem latchClear_pages (g : ChanNo) (w : Win) : (latchClear g w s).pages = s.pages :=
  s.modWin_pages g w _
@[simp] theorem linePass_pages (n : Fin 256) (depth : Nat) : (linePass n depth s).pages = s.pages := rfl
@[simp] theorem lineDeepen_pages (n : Fin 256) (depth : Nat) : (lineDeepen n depth s).pages = s.pages := rfl
@[simp] theorem noteEnd_pages (test : Folio → Bool) (cause : Fin 6) : (noteEnd test cause s).pages = s.pages := rfl
@[simp] theorem idleNow_pages : (idleNow s).pages = s.pages := rfl
@[simp] theorem rateRequest_pages : (rateRequest s).pages = s.pages := rfl
@[simp] theorem catStart_pages (b : BayNo) (k : Conv) : (catStart b k s).pages = s.pages := rfl
@[simp] theorem shelfSettle_pages (b : BayNo) : (shelfSettle b s).pages = s.pages := rfl
@[simp] theorem takeFree_pages : (takeFree s).pages = s.pages := rfl

@[simp] theorem raiseAt_pages (a : Nat) (sid : BitVec 16) : (raiseAt a s sid).pages = s.pages := by
  unfold raiseAt; exact pages_ite rfl rfl
@[simp] theorem raise_pages (sid : BitVec 16) : (raise s sid).pages = s.pages := raiseAt_pages s _ sid
@[simp] theorem raiseAsync_pages (sid : BitVec 16) : (raiseAsync s sid).pages = s.pages :=
  raiseAt_pages (takeFree s) _ sid

@[simp] theorem selMoved_pages (g : ChanNo) : (selMoved g s).pages = s.pages := by
  simp only [selMoved]; exact pages_ite rfl rfl
@[simp] theorem selCommitted_pages (g : ChanNo) : (selCommitted g s).pages = s.pages := by
  unfold selCommitted; exact pages_ite rfl rfl
@[simp] theorem spanRequest_pages (g : ChanNo) : (spanRequest g s).pages = s.pages := by
  simp only [spanRequest]; exact pages_ite rfl rfl
@[simp] theorem resample_pages (g : ChanNo) : (resample g s).pages = s.pages := by
  unfold resample
  split
  · split <;> rfl
  · rfl
@[simp] theorem blankFor_pages (g : ChanNo) (w : Win) (n : Nat) : (blankFor g w n s).pages = s.pages := by
  unfold blankFor; exact pages_ite rfl (s.modWin_pages g w _)
@[simp] theorem blankBoth_pages (g : ChanNo) (n : Nat) : (blankBoth g n s).pages = s.pages := by
  rw [blankBoth, blankFor_pages, blankFor_pages]
@[simp] theorem selfClear_pages (g : ChanNo) (w : Win) : (selfClear g w s).pages = s.pages := by
  simp only [selfClear]; exact pages_ite (latchClear_pages s g w) rfl
@[simp] theorem delayExpiry_pages (n : Fin 256) : (delayExpiry n s).pages = s.pages := by
  unfold delayExpiry
  split
  · split <;> rfl
  · rfl
@[simp] theorem arcRecheck_pages : (arcRecheck s).pages = s.pages := by
  unfold arcRecheck; exact pages_ite rfl rfl
@[simp] theorem hostWrite_pages (a : Nat) (l : List Byte) (poisoned : Bool) :
    (hostWrite a l poisoned s).pages = s.pages := by
  simp only [hostWrite]; exact pages_ite rfl (pages_ite rfl rfl)
@[simp] theorem dmaEnabled_pages (q : Fin 16) : (dmaEnabled q s).pages = s.pages := by
  unfold dmaEnabled; exact pages_ite rfl (pages_ite rfl rfl)

@[simp] theorem commitRes_pages (g : ChanNo) (old : State) : (commitRes g old s).pages = s.pages := by
  simp only [commitRes]; exact pages_ite (pages_ite rfl rfl) (pages_ite rfl rfl)
@[simp] theorem commitMeas_pages (g : ChanNo) (old : State) : (commitMeas g old s).pages = s.pages := by
  simp only [commitMeas]; exact pages_ite (pages_ite rfl rfl) (pages_ite rfl rfl)
@[simp] theorem commitSlew_pages (g : ChanNo) (old : State) : (commitSlew g old s).pages = s.pages := by
  unfold commitSlew; exact pages_ite rfl rfl
@[simp] theorem stacksCommitted_pages (old : State) : (stacksCommitted old s).pages = s.pages := by
  simp only [stacksCommitted]; exact pages_ite (pages_ite rfl rfl) (pages_ite rfl rfl)
@[simp] theorem catCommitted_pages (b : BayNo) (old : State) : (catCommitted b old s).pages = s.pages := by
  simp only [catCommitted, State.each_cons, State.each_nil]
  exact pages_ite (pages_ite rfl rfl) (pages_ite rfl rfl)

end

/-! ## Changes that raise event bits

Each rule carries the rise from fixed headers `v` over one operation, so that a chain of operations is a chain of
rules. -/

section
variable {v : Vector PageHdr 601} {s : State}

theorem EventsRise.setEvt (h : EventsRise v s.pages) (p : Page) (n : Nat) : EventsRise v (setEvt s p n).pages :=
  h.trans (setEvt_reports s p n).eventsRise

theorem EventsRise.each {α : Type} (h : EventsRise v s.pages) (l : List α) (f : α → State → State)
    (turn : ∀ x s, EventsRise v s.pages → EventsRise v (f x s).pages) : EventsRise v (s.each l f).pages :=
  State.each_keeps (fun t => EventsRise v t.pages) l f s (fun x _ t => turn x t) h

theorem EventsRise.ite {c : Prop} [Decidable c] {t u : State} (yes : EventsRise v t.pages)
    (no : EventsRise v u.pages) : EventsRise v (if c then t else u).pages := by
  split
  · exact yes
  · exact no

/-- An operation that is taken under a condition. -/
theorem EventsRise.optional {c : Prop} [Decidable c] {t u : State} (h : EventsRise v u.pages)
    (taken : EventsRise v u.pages → EventsRise v t.pages) : EventsRise v (if c then t else u).pages :=
  .ite (taken h) h

/-! ### A channel -/

theorem EventsRise.cancelOpening (h : EventsRise v s.pages) (g : ChanNo) (cause : Nat) :
    EventsRise v (cancelOpening s g cause).pages := by
  simp only [Machine.cancelOpening]
  exact .ite (.setEvt (by simpa using h) _ _) (by simpa using h)

theorem EventsRise.closedEvt (h : EventsRise v s.pages) (g : ChanNo) (cause : Nat) :
    EventsRise v (closedEvt s g cause).pages := .ite h (h.setEvt _ _)

theorem EventsRise.closeTick (h : EventsRise v s.pages) (g : ChanNo) (cause : Nat) :
    EventsRise v (closeTick s g cause).pages := by
  have opening := h.cancelOpening g cause
  simp only [Machine.closeTick]
  split
  · exact .closedEvt (by simpa using opening) _ _
  · exact .closedEvt (by simpa using opening) _ _
  · exact .ite (.closedEvt (by simpa using opening) _ _) opening
  · simpa using opening
  · exact opening
  · exact opening

theorem EventsRise.refreshTarget (h : EventsRise v s.pages) (g : ChanNo) :
    EventsRise v (refreshTarget g s).pages := by
  simp only [Machine.refreshTarget, setTarget, changeSlew_pages]
  exact .ite (.setEvt (by simpa using h) _ _) (by simpa using h)

theorem EventsRise.progHalt (h : EventsRise v s.pages) (g : ChanNo) : EventsRise v (progHalt g s).pages :=
  .refreshTarget (by simpa using h) g

theorem EventsRise.commitSpan (h : EventsRise v s.pages) (g : ChanNo) (old : State) :
    EventsRise v (commitSpan g old s).pages := by
  have moved : EventsRise v (selMoved g (selCommitted g s)).pages := by simpa using h
  simp only [Machine.commitSpan]
  exact .optional moved fun moved => .ite (h.setEvt _ _) (by simpa using moved)

theorem EventsRise.commitBoost (h : EventsRise v s.pages) (g : ChanNo) (old : State) :
    EventsRise v (commitBoost g old s).pages := by
  have closed : EventsRise v (Machine.closeTick (s.modForce g fun f => { f with boostAt := some s.tick }) g 8).pages :=
    .closeTick (by simpa using h) g 8
  exact .ite h (.ite closed (by simpa using closed))

theorem EventsRise.commitMode (h : EventsRise v s.pages) (g : ChanNo) (old : State) :
    EventsRise v (commitMode g old s).pages := by
  simp only [Machine.commitMode]
  exact .optional (.optional h fun h => .optional (by simpa using h) fun h => h.closeTick g 8) fun h => by simpa using h

theorem EventsRise.commitProg (h : EventsRise v s.pages) (g : ChanNo) (old : State) :
    EventsRise v (commitProg g old s).pages := by
  simp only [Machine.commitProg]
  exact .optional (.optional (.optional h fun h => h.progHalt g) fun h => by simpa using h) fun h => h.setEvt _ _

theorem EventsRise.commitClose (h : EventsRise v s.pages) (g : ChanNo) (w : Win) (old : State) :
    EventsRise v (commitClose g w old s).pages := .optional h fun h => h.closeTick g _

theorem EventsRise.commitWindows (h : EventsRise v s.pages) (g : ChanNo) (old : State) :
    EventsRise v (commitWindows g old s).pages := by
  simp only [Machine.commitWindows, selfClear_pages]
  refine .optional (.commitClose (.commitClose ?_ _ _ _) _ _ _) fun h => h.closeTick g 3
  refine .optional (.optional (.optional (.optional h ?_) ?_) ?_) ?_ <;> exact fun h => by simpa using h

theorem EventsRise.chanCommitted (h : EventsRise v s.pages) (g : ChanNo) (old : State) :
    EventsRise v (chanCommitted g old s).pages := by
  have forced := ((h.commitSpan g old).commitBoost g old).commitMode g old
  have measured : EventsRise v (commitRes g old (commitMeas g old (commitSlew g old
      (Machine.commitProg g old (Machine.commitMode g old (Machine.commitBoost g old
        (Machine.commitSpan g old s))))))).pages := by
    simpa using forced.commitProg g old
  simpa only [Machine.chanCommitted, resample_pages] using (measured.commitWindows g old).refreshTarget g

/-! ### Lines -/

theorem EventsRise.lineQualify (h : EventsRise v s.pages) (n : Fin 256) (depth : Nat) :
    EventsRise v (lineQualify n depth s).pages := by
  simp only [Machine.lineQualify]
  split
  · simpa using h
  · exact .ite (by simpa using h) (by simpa using h)
  · split
    · exact .setEvt (by simpa using h) _ _
    · simpa using h

theorem EventsRise.enterLine (h : EventsRise v s.pages) (n : Fin 256) (depth : Nat) :
    EventsRise v (enterLine n depth s).pages := by
  simp only [Machine.enterLine]
  refine .ite h ?_
  split
  · exact .ite (.optional (by simpa using h) fun h => by simpa using h) (.lineQualify (by simpa using h) n depth)
  · exact .lineQualify (by simpa using h) n depth

theorem EventsRise.loopDrop (h : EventsRise v s.pages) (n : Fin 256) : EventsRise v (loopDrop n s).pages := by
  have flagged := EventsRise.setEvt (s := (s.modLine n fun l => { l with loopFault := true }).modTransom fun x =>
    { x with loopCnt := x.loopCnt + 1 }) (by simpa using h) .transom 0
  exact .ite flagged (by simpa using flagged)

theorem EventsRise.lineChanged (h : EventsRise v s.pages) (old : State) (n : Fin 256) :
    EventsRise v (lineChanged old n s).pages :=
  .each (by simpa using h) _ _ fun _ _ h => .ite (h.enterLine n _) (h.loopDrop n)

theorem EventsRise.linesCommitted (h : EventsRise v s.pages) (q : Fin 4) (old : State) :
    EventsRise v (linesCommitted q old s).pages := .each h _ _ fun n _ h => h.lineChanged old n

/-! ### Folios -/

theorem EventsRise.folioAdmit (h : EventsRise v s.pages) (f : Fin 64) : EventsRise v (folioAdmit f s).pages := by
  simp only [Machine.folioAdmit]
  refine .ite (by simpa using h) ?_
  split <;> rw [arcRecheck_pages]
  · exact .setEvt (by simpa using h) _ _
  · exact .ite (by simpa using h) (.setEvt (by simpa using h) _ _)

theorem EventsRise.stageWord (h : EventsRise v s.pages) (g : ChanNo) (prec : Bool) (w : StgWord) :
    EventsRise v (stageWord g prec w s).pages := by
  simp only [Machine.stageWord]
  exact .ite (by simpa using h) (by simpa using EventsRise.setEvt (by simpa using h) .archive 3)

theorem EventsRise.sampleIn (h : EventsRise v s.pages) (f : Fin 64) (y : ChanNo × Nat × Nat) :
    EventsRise v (sampleIn f y s).pages :=
  .ite h (.each (by simpa using h) _ _ fun _ _ h => h.stageWord _ _ _)

theorem EventsRise.precIn (h : EventsRise v s.pages) (f : Fin 64) (y : ChanNo × Nat × Nat × Word) :
    EventsRise v (precIn f y s).pages := .optional h fun h => h.stageWord _ _ _

theorem EventsRise.releaseSamples (h : EventsRise v s.pages) (f : Fin 64) :
    EventsRise v (releaseSamples f s).pages := by
  simp only [Machine.releaseSamples]
  exact .ite h (.each (.each (by simpa using h) _ _ fun y _ h => h.sampleIn f y) _ _ fun y _ h => h.precIn f y)

theorem EventsRise.folioEndAs (h : EventsRise v s.pages) (f : Fin 64) (cause last : Nat) :
    EventsRise v (folioEndAs f cause last s).pages := by
  unfold Machine.folioEndAs
  refine .ite ?_ h
  rw [idleNow_pages, raise_pages]
  exact .releaseSamples (by simpa using h) f

theorem EventsRise.foliosCommitted (h : EventsRise v s.pages) (q : Fin 8) (old : State) :
    EventsRise v (foliosCommitted q old s).pages :=
  .each h _ _ fun f _ h => (h.folioEndAs f 2 _).folioAdmit f

/-! ### DMA queues, Shelf queues and Lintel -/

theorem EventsRise.dmaAborted (h : EventsRise v s.pages) (old : State) (q : Fin 16) :
    EventsRise v (dmaAborted old q s).pages := by
  simp only [Machine.dmaAborted, State.modDma_pages]
  split
  · exact .ite (.setEvt (by simpa using h) _ _) (by simpa using h)
  · exact h

theorem EventsRise.dmaCommitted (h : EventsRise v s.pages) (i : Fin 2) (old : State) :
    EventsRise v (dmaCommitted i old s).pages :=
  .each (.each h _ _ fun q _ h => h.dmaAborted old q) _ _ fun _ _ h => by simpa using h

theorem EventsRise.shelfFire (h : EventsRise v s.pages) (b : BayNo) : EventsRise v (shelfFire b s).pages := by
  simpa only [Machine.shelfFire, raise_pages] using EventsRise.setEvt (by simpa using h) _ _

theorem EventsRise.shelfNewTmo (h : EventsRise v s.pages) (b : BayNo) : EventsRise v (shelfNewTmo b s).pages := by
  have settled : EventsRise v (shelfSettle b s).pages := by simpa using h
  simp only [Machine.shelfNewTmo]
  split
  · exact .ite (by simpa using settled) (.ite (settled.shelfFire b) settled)
  · exact settled

theorem EventsRise.shelfLevel (h : EventsRise v s.pages) (b : BayNo) : EventsRise v (shelfLevel b s).pages := by
  simp only [Machine.shelfLevel]
  exact .ite (by simpa using EventsRise.setEvt (by simpa using h) _ _) (by simpa using h)

theorem EventsRise.shelfCommitted (h : EventsRise v s.pages) (b : BayNo) (old : State) :
    EventsRise v (shelfCommitted b old s).pages := .shelfLevel (.ite h (h.shelfNewTmo b)) b

theorem EventsRise.lintelShares (h : EventsRise v s.pages) : EventsRise v (lintelShares s).pages :=
  .optional h fun h => h.setEvt _ _

/-! ### Every page -/

/-- What a commit does at its tick raises events and changes nothing else in any page header. -/
theorem EventsRise.committed (h : EventsRise v s.pages) (p : Page) (old : State) :
    EventsRise v (committed p old s).pages := by
  cases p with
  | channel g => exact h.chanCommitted g old
  | line q => exact h.linesCommitted q old
  | folio q => exact h.foliosCommitted q old
  | dma i => exact h.dmaCommitted i old
  | stk => simpa [Machine.committed] using h
  | catalogue b => simpa [Machine.committed] using h
  | shelf b => exact h.shelfCommitted b old
  | lintel => exact h.lintelShares
  | device | faultLog _ | transom | archive | host | msix | ndolek | accession | bay _ | sash _ => exact h

end
end Sys2Proof.Machine
end

section
/-! PROOFS. The commit itself (chapter 2, R36 to R49): a check that ends, the values that take effect, and the commit
task input. -/

namespace Sys2Proof.Machine

/-! ## Checked values take effect (R40) -/

/-- The values `vals` of a commit of page `p` took effect between `s` and `t`. -/
structure TookEffect (p : Page) (vals : RegStore) (s t : State) : Prop where
  live : (t.page p).live = liveVals p vals
  seq : (t.page p).seq = (s.page p).seq + 1
  time : (t.page p).commitTime = s.time
  aborted : (t.page p).aborted = false
  staged : (t.page p).staged = none
  done : evtOn t p evtDone
  count : (t.page p).clampCount = (s.page p).clampCount
  clamped : (s.page p).clampCount ≠ 0 → evtOn t p evtClamped
  others : ∀ q, q ≠ p → (t.page q).live = (s.page q).live ∧ (t.page q).seq = (s.page q).seq

/-- A held DISCARD changes the draft of its page, and nothing else but that it is held. -/
theorem heldDiscard_page (p q : Page) (s : State) :
    (heldDiscard p s).page q =
      { s.page q with
        draft := ((heldDiscard p s).page q).draft, discardHeld := ((heldDiscard p s).page q).discardHeld } := by
  by_cases e : q = p
  · subst e
    simp only [heldDiscard, State.page_modPage]
    split <;> rfl
  · rw [heldDiscard, State.page_modPage_ne _ _ _ _ e]

/-- What ends a commit leaves of each header the drafts open, and the events that its effects raised. -/
theorem endedHdr (p q : Page) {s t : State} (rise : EventsRise s.pages t.pages) :
    (heldDiscard p (commitEnded p t)).page q =
      { s.page q with
        evt := (t.page q).evt, setTick := (t.page q).setTick, setBits := (t.page q).setBits
        draft := ((heldDiscard p (commitEnded p t)).page q).draft
        discardHeld := ((heldDiscard p (commitEnded p t)).page q).discardHeld } := by
  have hdr : t.page q = _ := (rise q).1
  have ended : (commitEnded p t).page q = t.page q := rfl
  rw [heldDiscard_page p q (commitEnded p t), ended, hdr]
  rfl

theorem evtOn_ended {p q : Page} {n : Nat} {s : State} (on : evtOn s q n) :
    evtOn (heldDiscard p (commitEnded p s)) q n := by
  rw [evtOn, heldDiscard_page]
  exact on

/-- The state with the checked values live, and then with COMMIT_DONE and CLAMPED as R40 sets them. -/
def valuesLive (p : Page) (vals : RegStore) (s : State) : State := s.modPage p (hdrApply (liveVals p vals) s.time)
def doneSet (p : Page) (vals : RegStore) (s : State) : State := setEvt (valuesLive p vals s) p evtDone
def commitReported (p : Page) (vals : RegStore) (s : State) : State :=
  if (s.page p).clampCount = 0 then doneSet p vals s else setEvt (doneSet p vals s) p evtClamped

theorem commitApply_eq (p : Page) (vals : RegStore) (s : State) :
    commitApply p vals s = heldDiscard p (commitEnded p (committed p s (commitReported p vals s))) := rfl

theorem commitApply_tookEffect (s : State) (p : Page) (vals : RegStore) (up : pageUp s p = true) :
    TookEffect p vals s (commitApply p vals s) := by
  have afterReport : EventsRise (commitReported p vals s).pages (committed p s (commitReported p vals s)).pages :=
    (EventsRise.refl _).committed p s
  have afterDone : EventsRise (doneSet p vals s).pages (committed p s (commitReported p vals s)).pages :=
    (EventsRise.ite (.refl _) ((EventsRise.refl _).setEvt p evtClamped)).trans afterReport
  have rise : EventsRise (valuesLive p vals s).pages (committed p s (commitReported p vals s)).pages :=
    ((EventsRise.refl _).setEvt p evtDone).trans afterDone
  have hdr (q : Page) := endedHdr p q rise
  have self : (valuesLive p vals s).page p = hdrApply (liveVals p vals) s.time (s.page p) := State.page_modPage ..
  rw [commitApply_eq]
  exact
    { live := by rw [hdr, self]; rfl
      seq := by rw [hdr, self]; rfl
      time := by rw [hdr, self]; rfl
      aborted := by rw [hdr, self]; rfl
      staged := by rw [hdr, self]; rfl
      count := by rw [hdr, self]; rfl
      done := evtOn_ended (afterDone.evtOn (setEvt_on _ p evtDone (by decide) up))
      clamped := fun count => by
        have on : evtOn (commitReported p vals s) p evtClamped := by
          rw [commitReported, if_neg count]
          exact setEvt_on _ p evtClamped (by decide) (by simpa [pageUp, domUp, doneSet, valuesLive] using up)
        exact evtOn_ended (afterReport.evtOn on)
      others := fun q other => by
        have same : (valuesLive p vals s).page q = s.page q := State.page_modPage_ne _ _ _ _ other
        rw [hdr, same]
        exact ⟨rfl, rfl⟩ }

/-! ## A check that ends (R37, R39, R42, R44) -/

/-- A waiting commit starts by capturing the drafts, and changes nothing else of its header. -/
theorem commitNext_page (p q : Page) (s : State) :
    (commitNext p s).page q =
      { s.page q with
        pending := ((commitNext p s).page q).pending, captured := ((commitNext p s).page q).captured } := by
  by_cases e : q = p
  · subst e
    simp only [commitNext, State.page_modPage]
    split <;> rfl
  · rw [commitNext, State.page_modPage_ne _ _ _ _ e]

/-- The state when a check has ended and its report stands, before the values apply or wait. -/
def checkReported (p : Page) (captured : RegStore) (s : State) : State :=
  commitNext p (s.modPage p (hdrChecked p (clampAll p captured).1 (clampAll p captured).2))

theorem checkPassed_eq (p : Page) (captured : RegStore) (s : State) :
    checkPassed p captured s =
      if ((checkReported p captured s).page p).taskApply then
        (checkReported p captured s).modPage p fun h => { h with staged := some (clampAll p captured).1 }
      else commitApply p (clampAll p captured).1 (checkReported p captured s) := rfl

section
variable (s : State) (p : Page) (c : RegStore)

/-- The report leaves what its page has in force, and counts the clamped fields (R39). -/
theorem checkReported_page :
    ((checkReported p c s).page p).taskApply = (s.page p).taskApply ∧
    ((checkReported p c s).page p).live = (s.page p).live ∧ ((checkReported p c s).page p).seq = (s.page p).seq ∧
    ((checkReported p c s).page p).clampCount = BitVec.ofNat 16 (min (clampAll p c).2.length 0xFFFF) := by
  rw [checkReported, commitNext_page, State.page_modPage]
  exact ⟨rfl, rfl, rfl, rfl⟩

theorem checkReported_other (q : Page) (other : q ≠ p) :
    ((checkReported p c s).page q).live = (s.page q).live ∧
    ((checkReported p c s).page q).seq = (s.page q).seq := by
  rw [checkReported, commitNext_page, State.page_modPage_ne _ _ _ _ other]
  exact ⟨rfl, rfl⟩

/-- The count of clamped fields saturates, so that it is 0 for none only. -/
theorem clampCount_ne_zero {l : List ClampRule} (clamped : l ≠ []) : BitVec.ofNat 16 (min l.length 0xFFFF) ≠ 0 := by
  have pos : 0 < l.length := List.length_pos_iff.mpr clamped
  bv_omega

/-- COMMIT_CHECK_END of a check in progress, on a page that is up. -/
theorem commitCheckEnd_captured (fault : Bool) (up : pageUp s p = true) (captured : (s.page p).captured = some c)
    (notHopped : lineHopped s p = false) :
    commitCheckEnd p fault s =
      if fault then commitAbort p (commitNext p (s.modPage p fun h => { h with captured := none }))
      else checkPassed p c s := by
  cases fault <;> simp [commitCheckEnd, up, captured, notHopped]

theorem checkPassed_applies (up : pageUp s p = true) (atOnce : (s.page p).taskApply = false) :
    TookEffect p (clampAll p c).1 (checkReported p c s) (checkPassed p c s) := by
  obtain ⟨task, -, -, -⟩ := checkReported_page s p c
  rw [checkPassed_eq, task, atOnce]
  exact commitApply_tookEffect _ p _ up

theorem checkPassed_stages (atTask : (s.page p).taskApply = true) :
    ((checkPassed p c s).page p).staged = some (clampAll p c).1 ∧
    ((checkPassed p c s).page p).live = (s.page p).live ∧ ((checkPassed p c s).page p).seq = (s.page p).seq := by
  obtain ⟨task, live, seq, -⟩ := checkReported_page s p c
  rw [checkPassed_eq, task, atTask, if_pos rfl, State.page_modPage]
  exact ⟨rfl, live, seq⟩

/-- An aborted commit leaves every live value (R44). -/
theorem commitAbort_spec (up : pageUp s p = true) :
    ((commitAbort p s).page p).aborted = true ∧ evtOn (commitAbort p s) p evtAborted ∧
    ∀ q, ((commitAbort p s).page q).live = (s.page q).live := by
  have rise := (EventsRise.refl (s.modPage p fun h => { h with aborted := true }).pages).setEvt p evtAborted
  have hdr (q : Page) : (commitAbort p s).page q = _ :=
    endedHdr p q (t := detect (setEvt (s.modPage p fun h => { h with aborted := true }) p evtAborted) p 0 0x01 0
      clsLasting) rise
  refine ⟨by rw [hdr, State.page_modPage], ?_, fun q => ?_⟩
  · exact evtOn_ended (setEvt_on _ p evtAborted (by decide) up)
  · rw [hdr]
    by_cases e : q = p
    · subst e
      rw [State.page_modPage]
    · rw [State.page_modPage_ne _ _ _ _ e]

/-- The end of a check that a fault of the draft storage stops changes no live value before the abort. -/
theorem commitNext_live (q : Page) :
    ((commitNext p (s.modPage p fun h => { h with captured := none })).page q).live = (s.page q).live := by
  rw [commitNext_page]
  by_cases e : q = p
  · subst e; rw [State.page_modPage]
  · rw [State.page_modPage_ne _ _ _ _ e]

end

/-! ## The commit task input (R46, R47) -/

/-- A task activation is carried out where its page is open; the depth that it carries is no part of a header. -/
theorem commitTask_request (s : State) (p : Page) (d : Nat) (task : hasCommitTask p = true)
    (isOpen : pageOpen s p = true) :
    exec (.commitTask p d) s = .next (withVia (.task d) (commitTask p) s) := by
  have done : request p 0x01C (.task d) (commitTask p) s = withVia (.task d) (commitTask p) s :=
    (request_spec p 0x01C (.task d) (commitTask p) s).1 rfl isOpen
  rw [← done]
  exact congrArg Host.Outcome.next (if_pos task)

/-- What only reports, carried out at an activation's depth, only reports. -/
theorem ReportsOnly.withVia (v : Via) (f : State → State) (s : State)
    (h : ReportsOnly { s with actDepth := viaDepth v } (f { s with actDepth := viaDepth v })) :
    ReportsOnly s (withVia v f s) where
  rest := congrArg (fun t : State => { t with actDepth := s.actDepth }) h.rest
  pages := h.pages
  evt := h.evt
  host := h.host
  transom := h.transom
  mgmt := h.mgmt
  out := h.out

theorem commitTask_applies (s : State) (p : Page) (v : Via) (vals : RegStore) (up : pageUp s p = true)
    (staged : (s.page p).staged = some vals) : TookEffect p vals s (withVia v (commitTask p) s) := by
  have applied :
      commitTask p { s with actDepth := viaDepth v } = commitApply p vals { s with actDepth := viaDepth v } := by
    have same : (({ s with actDepth := viaDepth v } : State).page p).staged = some vals := staged
    simp only [commitTask, same]
  obtain ⟨live, seq, time, aborted, dropped, done, count, clamped, others⟩ :=
    applied ▸ commitApply_tookEffect { s with actDepth := viaDepth v } p vals up
  exact ⟨live, seq, time, aborted, dropped, done, count, clamped, others⟩

theorem commitTask_empty (s : State) (p : Page) (v : Via) (up : pageUp s p = true)
    (empty : (s.page p).staged = none) :
    evtOn (withVia v (commitTask p) s) p evtTaskEmpty ∧ ReportsOnly s (withVia v (commitTask p) s) := by
  have told :
      commitTask p { s with actDepth := viaDepth v } = setEvt { s with actDepth := viaDepth v } p evtTaskEmpty := by
    have same : (({ s with actDepth := viaDepth v } : State).page p).staged = none := empty
    simp only [commitTask, same]
  refine ⟨?_, .withVia v _ s (told ▸ setEvt_reports _ p evtTaskEmpty)⟩
  have on : evtOn (commitTask p { s with actDepth := viaDepth v }) p evtTaskEmpty :=
    told ▸ setEvt_on _ p evtTaskEmpty (by decide) up
  exact on

/-! ## The obligation -/

/-- Settles O9: what a commit does at its tick raises events only (`EventsRise.committed`), so the header that R40 and
R44 write is the one that stands after it. -/
theorem commitsApply : Obligations.CommitsApply := by
  unfold Obligations.CommitsApply
  refine ⟨fun s p c up captured notHopped => ?_, fun s p d task isOpen => ?_⟩
  · have run (fault : Bool) : exec (.commitCheckEnd p fault) s = .next _ :=
      congrArg Host.Outcome.next (commitCheckEnd_captured s p c fault up captured notHopped)
    refine ⟨fun atOnce => ⟨_, run false, ?_⟩, fun atTask => ⟨_, run false, checkPassed_stages s p c atTask⟩,
      ⟨_, run true, ?_⟩⟩
    · obtain ⟨-, -, seq, count⟩ := checkReported_page s p c
      have effect := checkPassed_applies s p c up atOnce
      refine ⟨effect.live, seq ▸ effect.seq, effect.time, effect.aborted, effect.done,
        fun clamped => effect.clamped ?_, count ▸ effect.count, fun q other => ?_⟩
      · rw [count]
        exact clampCount_ne_zero clamped
      · obtain ⟨live, seq⟩ := checkReported_other s p c q other
        obtain ⟨live', seq'⟩ := effect.others q other
        exact ⟨live'.trans live, seq'.trans seq⟩
    · obtain ⟨aborted, told, live⟩ :=
        commitAbort_spec (commitNext p (s.modPage p fun h => { h with captured := none })) p up
      exact ⟨aborted, told, fun q => (live q).trans (commitNext_live s p q)⟩
  · have run := commitTask_request s p d task isOpen
    obtain ⟨up, -⟩ : pageUp s p = true ∧ (!pageInReset s p) = true := by
      simpa only [pageOpen, Bool.and_eq_true] using isOpen
    refine ⟨fun v staged => ⟨_, run, ?_⟩, fun empty => ⟨_, run, commitTask_empty s p (.task d) up empty⟩⟩
    have effect := commitTask_applies s p (.task d) v up staged
    exact ⟨effect.live, effect.seq, effect.time, effect.staged, effect.done⟩

end Sys2Proof.Machine
end

section
/-! PROOFS. The high word of a 64-bit register (chapter 2, R55), and a list of pairs that names one offset twice. -/

namespace Sys2Proof.Machine

/-! ## Reads of one doubleword -/

/-- An aligned 32-bit read of a page that can be reached answers the register's word, with the read's effect. -/
theorem accessRead_word (s : State) (p : Page) (addr : Nat) (reached : hostOpen s p = true)
    (powered : s.power.powered = true) (page : pageOf addr = some p) (aligned : addr % 4 = 0) :
    accessRead addr 1 true s = answerRead [(regRead p (addr % 4096) s).1] (regRead p (addr % 4096) s).2 := by
  obtain ⟨link, isOpen⟩ : s.host.linkUp = true ∧ pageOpen s p = true := by simpa [hostOpen] using reached
  simp [accessRead, busReads, busRead, page, aligned, powered, link, isOpen]

/-- The read of an armed pair's high word answers the shadow and lists the pair as disarmed (R55). -/
theorem regRead_high_armed (s : State) (p : Page) (off : Nat) (notSash : ∀ b, p ≠ .sash b)
    (notLow : pairLow p (off + 4) = false) (low : pairLow p off = true) (armed : (pairAt s p off).armed = true) :
    regRead p (off + 4) s = ((pairAt s p off).shadow, putPair p { pairAt s p off with armed := false } s) := by
  have high : pairHigh p (off + 4) = true := by simp [pairHigh, low]
  have noEffect (t : State) : pairReadEffect p off t = t := by
    cases p with
    | sash b => exact absurd rfl (notSash b)
    | _ => rfl
  simp [regRead, notLow, high, readHigh, armed, noEffect]

@[simp] theorem pairAt_answerRead (l : List Word) (s : State) (p : Page) (off : Nat) :
    pairAt (answerRead l s) p off = pairAt s p off := rfl

/-! ## A list of pairs that names one offset twice -/

/-- DEV_UID as a low-word read leaves it over a high word of 0. -/
def armedUid : PairSt := { off := 0x048, shadow := 0, armed := true, held := none }

/-- PD0 and the link are up, and the device page's list of pairs names DEV_UID twice. -/
def uidListedTwice : State :=
  State.modPage
    { State.reset with
      power := { Power.reset with powered := true, up := 1 }
      host := { HostLink.reset with linkUp := true } }
    .device fun h => { h with pairs := [armedUid, armedUid] }

theorem pairAt_uidListedTwice : pairAt uidListedTwice .device 0x048 = armedUid := by
  simp [pairAt, uidListedTwice, pairFind, armedUid]

/-- Disarmed over a shadow of 0 the pair is blank: the first of the two leaves the list, and the second is found. -/
theorem pairAt_uidListedTwice_disarmed :
    pairAt (putPair .device { armedUid with armed := false } uidListedTwice) .device 0x048 = armedUid := by
  have list : pairFind (pairPut { armedUid with armed := false } [armedUid, armedUid]) 0x048 = armedUid := by decide
  simpa [pairAt, putPair, uidListedTwice] using list

theorem readHighWord_uidListedTwice :
    exec (.readHighWord .device (0x048 + 4)) uidListedTwice =
      .next (answerRead [0] (putPair .device { armedUid with armed := false } uidListedTwice)) := by
  have read := regRead_high_armed uidListedTwice .device 0x048 (by simp) rfl rfl (by rw [pairAt_uidListedTwice]; rfl)
  have word := accessRead_word uidListedTwice .device 0x04C rfl rfl rfl rfl
  rw [pairAt_uidListedTwice] at read
  rw [read] at word
  exact congrArg Host.Outcome.next word

/-- Refutes O11: its clauses on reads speak of every state, and nothing in them (nor in `CanonicalStores`) says that a
page's list of pairs names an offset once. On the device page of `uidListedTwice` the read of DEV_UID's high word
disarms the first of two entries, and the armed flag that the page then shows is the second's. -/
theorem not_sixtyFourBitRegisters : ¬ Obligations.SixtyFourBitRegisters := by
  unfold Obligations.SixtyFourBitRegisters
  intro ⟨reads, _, _⟩
  have uid := reads uidListedTwice .device 0x048 rfl rfl
  rw [show (0x048 : BitVec 12).toNat = 0x048 from rfl] at uid
  obtain ⟨-, armedRead, -, -⟩ := uid
  obtain ⟨t, run, -, disarmed, -⟩ := armedRead (by rw [pairAt_uidListedTwice]; rfl)
  rw [readHighWord_uidListedTwice] at run
  cases run
  rw [pairAt_answerRead, pairAt_uidListedTwice_disarmed] at disarmed
  exact absurd disarmed (by decide)

end Sys2Proof.Machine
end

section
/-! PROOFS. The ledger code without errors in transmission (chapter 14, R343, R344, R346, R347): a block that is encoded
and decoded comes back as it was, a poison block comes back as poison, and a tag is clean. -/

namespace Sys2Proof.Machine

/-! ## Multiplication in GF(2^8) is linear -/

theorem gfDouble_xor (a b : Byte) : gfDouble (a ^^^ b) = gfDouble a ^^^ gfDouble b := by
  have reduced (x : Byte) : gfDouble x = x <<< 1 ^^^ if x.getLsbD 7 then 0x1D else 0 := by
    unfold gfDouble
    split <;> simp
  have carry (x y : Bool) : (if (x ^^ y) = true then 0x1D else 0 : Byte) =
      (if x = true then 0x1D else 0) ^^^ if y = true then 0x1D else 0 := by
    revert x y
    decide
  rw [reduced, reduced, reduced, BitVec.getLsbD_xor, BitVec.shiftLeft_xor_distrib, carry]
  ac_rfl

theorem gfMulBits_xor (n : Nat) (a b c : Byte) : gfMulBits n (a ^^^ b) c = gfMulBits n a c ^^^ gfMulBits n b c := by
  induction n generalizing a b c with
  | zero => simp [gfMulBits]
  | succ n ih =>
    simp only [gfMulBits, gfDouble_xor, ih]
    split
    · ac_rfl
    · simp

theorem gfMul_xor (a b c : Byte) : gfMul (a ^^^ b) c = gfMul a c ^^^ gfMul b c := gfMulBits_xor 8 a b c

theorem gfMul_zero (c : Byte) : gfMul 0 c = 0 := by simpa using gfMul_xor 0 0 c

/-- The byte made of the low `n` bits of a byte, one by one. -/
def lowBits (b : Byte) (n : Nat) : Byte :=
  match n with
  | 0 => 0
  | k + 1 => lowBits b k ^^^ if b.getLsbD k then 1#8 <<< k else 0

theorem lowBits_eight (b : Byte) : lowBits b 8 = b := by
  have all : ∀ n : Fin 256, lowBits (BitVec.ofFin n) 8 = BitVec.ofFin n := by decide +kernel
  exact all b.toFin

/-- Functions that are additive over exclusive or and agree on the bytes of one bit agree. -/
theorem xorLinear_ext {f g : Byte → Byte} (hf : ∀ a b, f (a ^^^ b) = f a ^^^ f b)
    (hg : ∀ a b, g (a ^^^ b) = g a ^^^ g b) (unit : ∀ k : Fin 8, f (1#8 <<< k.val) = g (1#8 <<< k.val)) (b : Byte) :
    f b = g b := by
  have zero : f 0 = g 0 := by
    have hf0 : f 0 = 0 := by simpa using hf 0 0
    have hg0 : g 0 = 0 := by simpa using hg 0 0
    rw [hf0, hg0]
  have low (n : Nat) (below : n ≤ 8) : f (lowBits b n) = g (lowBits b n) := by
    induction n with
    | zero => exact zero
    | succ k ih =>
      rw [lowBits, hf, hg, ih (by omega)]
      split
      · rw [unit ⟨k, by omega⟩]
      · rw [zero]
  have whole := low 8 (Nat.le_refl 8)
  rwa [lowBits_eight] at whole

/-! ## Syndromes of a ledger word -/

/-- The value at α^j of the polynomial whose coefficients are four check bytes. -/
def checkValue (j : Nat) (r : Check) : Byte :=
  gfMul (gfMul (gfMul r[0] (gfPow j)) (gfPow j)) (gfPow j) ^^^ gfMul (gfMul r[1] (gfPow j)) (gfPow j) ^^^
    gfMul r[2] (gfPow j) ^^^ r[3]

/-- A value times x^4, at α^j. -/
def shiftFour (j : Nat) (a : Byte) : Byte := gfMul (gfMul (gfMul (gfMul a (gfPow j)) (gfPow j)) (gfPow j)) (gfPow j)

theorem shiftFour_xor (j : Nat) (a b : Byte) : shiftFour j (a ^^^ b) = shiftFour j a ^^^ shiftFour j b := by
  simp only [shiftFour, gfMul_xor]

/-- α^0 to α^3 are roots of the generator polynomial, the divisor of encoding (R343). -/
theorem generator_root (j : Fin 4) (f : Byte) :
    checkValue j #v[gfMul f 0x0F, gfMul f 0x36, gfMul f 0x78, gfMul f 0x40] = shiftFour j f := by
  refine xorLinear_ext (f := fun f => checkValue j #v[gfMul f 0x0F, gfMul f 0x36, gfMul f 0x78, gfMul f 0x40])
    (fun a b => ?_) (shiftFour_xor j) ?_ f
  · simp only [checkValue, gfMul_xor, Vector.getElem_mk, List.getElem_toArray, List.getElem_cons_succ,
      List.getElem_cons_zero]
    ac_rfl
  · revert j
    decide

/-- One more byte of a received word (R344). -/
def synStep (j : Nat) (a c : Byte) : Byte := gfMul a (gfPow j) ^^^ c

theorem syndrome_append (w v : List Byte) (j : Nat) : syndrome (w ++ v) j = v.foldl (synStep j) (syndrome w j) :=
  List.foldl_append

theorem foldl_synStep_four (j : Nat) (a : Byte) (r : Check) :
    r.toList.foldl (synStep j) a = shiftFour j a ^^^ checkValue j r := by
  have four : r.toList = [r[0], r[1], r[2], r[3]] := by
    refine List.ext_getElem (by simp) fun i h _ => ?_
    have below : i < 4 := by simpa using h
    match i, below with
    | 0, _ | 1, _ | 2, _ | 3, _ => simp
  simp only [four, List.foldl_cons, List.foldl_nil, synStep, checkValue, shiftFour, gfMul_xor]
  ac_rfl

theorem checkValue_rsStep (j : Nat) (r : Check) (d : Byte) :
    checkValue j (rsStep r d) =
      checkValue j #v[gfMul (d ^^^ r[0]) 0x0F, gfMul (d ^^^ r[0]) 0x36, gfMul (d ^^^ r[0]) 0x78,
        gfMul (d ^^^ r[0]) 0x40] ^^^ checkValue j #v[r[1], r[2], r[3], 0] := by
  simp only [rsStep, checkValue, gfMul_xor, Vector.getElem_mk, List.getElem_toArray, List.getElem_cons_succ,
    List.getElem_cons_zero]
  ac_rfl

/-- Encoding keeps the value of the data, shifted by four places, at each root. -/
theorem rsStep_keeps_value (j : Fin 4) (r : Check) (a d : Byte) (h : checkValue j r = shiftFour j a) :
    checkValue j (rsStep r d) = shiftFour j (synStep j a d) := by
  have next : shiftFour j (synStep j a d) = gfMul (checkValue j r) (gfPow j) ^^^ shiftFour j d := by
    rw [h, synStep, shiftFour_xor]
    rfl
  have drop : shiftFour j r[0] ^^^ checkValue j #v[r[1], r[2], r[3], 0] = gfMul (checkValue j r) (gfPow j) := by
    simp only [shiftFour, checkValue, gfMul_xor, Vector.getElem_mk, List.getElem_toArray, List.getElem_cons_succ,
      List.getElem_cons_zero]
    ac_rfl
  rw [checkValue_rsStep, generator_root, shiftFour_xor, next, ← drop]
  ac_rfl

theorem checkValue_rsCheck (j : Fin 4) (data : List Byte) :
    checkValue j (rsCheck data) = shiftFour j (syndrome data j) := by
  have all (l : List Byte) (r : Check) (a : Byte) (h : checkValue j r = shiftFour j a) :
      checkValue j (l.foldl rsStep r) = shiftFour j (l.foldl (synStep j) a) := by
    induction l generalizing r a with
    | nil => exact h
    | cons d l ih => exact ih _ _ (rsStep_keeps_value j r a d h)
  refine all data _ 0 ?_
  simp only [checkValue, shiftFour, Vector.getElem_mk, List.getElem_toArray, List.getElem_cons_succ,
    List.getElem_cons_zero, gfMul_zero]
  rfl

/-- The syndromes of a ledger word: 0, or those of the poison mark (R343, R347). -/
theorem syndrome_ledgerWord (data : List Byte) (poison : Bool) (j : Fin 4) :
    syndrome (ledgerWord data poison) j = if poison then checkValue j #v[0xFF, 0xFF, 0xFF, 0xFF] else 0 := by
  cases poison with
  | false =>
    show syndrome (data ++ (rsCheck data).toList) j = 0
    rw [syndrome_append, foldl_synStep_four, checkValue_rsCheck, BitVec.xor_self]
    rfl
  | true =>
    show syndrome (data ++ (rsCheck data).toList.map fun x => ~~~x) j = checkValue j #v[0xFF, 0xFF, 0xFF, 0xFF]
    have not (x : Byte) : ~~~x = x ^^^ 0xFF := by rw [← BitVec.xor_allOnes]; rfl
    have mark (r : Check) : checkValue j (r.map fun x => ~~~x) =
        checkValue j r ^^^ checkValue j #v[0xFF, 0xFF, 0xFF, 0xFF] := by
      simp only [checkValue, Vector.getElem_map, not, gfMul_xor, Vector.getElem_mk, List.getElem_toArray,
        List.getElem_cons_succ, List.getElem_cons_zero]
      ac_rfl
    rw [syndrome_append, ← Vector.toList_map, foldl_synStep_four, ← checkValue_rsCheck, mark, ← BitVec.xor_assoc,
      BitVec.xor_self, BitVec.zero_xor]

theorem syndromes_ledgerWord_clean (data : List Byte) : syndromes (ledgerWord data false) = [0, 0, 0, 0] :=
  List.map_congr_left (g := fun _ => 0) fun j below =>
    syndrome_ledgerWord data false ⟨j, List.mem_range.mp below⟩

theorem syndromes_ledgerWord_poison (data : List Byte) : syndromes (ledgerWord data true) = poisonSyndromes := by
  have mark : poisonSyndromes = syndromes (ledgerWord (List.replicate 32 0) true) := by decide +kernel
  rw [mark]
  refine List.map_congr_left fun j below => ?_
  have value (d : List Byte) := syndrome_ledgerWord d true ⟨j, List.mem_range.mp below⟩
  exact (value data).trans (value _).symm

/-! ## Words and tags that arrive without errors -/

theorem ledgerArrive_clean (data : List Byte) (block : data.length = 32) :
    ledgerArrive data false [] = (.clean, data) := by
  have word : (ledgerWord data false).take 32 = data := by simp [ledgerWord, block]
  simp only [ledgerArrive, withErrs, List.foldl_nil, ledgerDecode, syndromes_ledgerWord_clean, if_true, word]

theorem ledgerArrive_poison (data : List Byte) : (ledgerArrive data true []).1 = .poison := by
  have mark : ¬poisonSyndromes = [0, 0, 0, 0] := by decide +kernel
  simp only [ledgerArrive, withErrs, List.foldl_nil, ledgerDecode, syndromes_ledgerWord_poison, mark, if_true, if_false]

theorem tagArrive_clean (t : BitVec 56) : (tagArrive t 0 0).1 = .clean := by simp [tagArrive]

end Sys2Proof.Machine
end

section
/-! PROOFS. What a read of DRAM finds where no codeword and no tag carries an error (chapter 14, R344, R347, R349), and
the bytes that a write brings. -/

namespace Sys2Proof.Machine

/-! ## Bytes as a read passes them on -/

/-- A byte of DRAM as a read passes it on: none in a poison block. -/
def cellView (k : Stacks) (a : Nat) : Option Byte := if a / 32 ∈ k.poison then none else some (memByte k a)

/-- `n` bytes from address `a` as a read passes them on. -/
def cellsFrom (k : Stacks) (a n : Nat) : List (Option Byte) := (List.range n).map fun i => cellView k (a + i)

@[simp] theorem cellsFrom_length (k : Stacks) (a n : Nat) : (cellsFrom k a n).length = n := by simp [cellsFrom]

theorem cellsFrom_getElem? (k : Stacks) (a n i : Nat) (h : i < n) :
    (cellsFrom k a n)[i]? = some (cellView k (a + i)) := by
  simp [cellsFrom, h]

theorem cellsFrom_append (k : Stacks) (a m n : Nat) :
    cellsFrom k a m ++ cellsFrom k (a + m) n = cellsFrom k a (m + n) := by
  simp [cellsFrom, List.range_add, Nat.add_assoc]

theorem cellsFrom_part (k : Stacks) (a m i n : Nat) (h : i + n ≤ m) :
    ((cellsFrom k a m).drop i).take n = cellsFrom k (a + i) n := by
  refine List.ext_getElem (by simp; omega) fun j _ _ => ?_
  simp [cellsFrom, Nat.add_assoc]

/-- Whole pieces of `c` bytes, one after the other. -/
theorem cellsFrom_pieces (k : Stacks) (c u m : Nat) :
    (List.range m).flatMap (fun i => cellsFrom k (c * (u + i)) c) = cellsFrom k (c * u) (c * m) := by
  induction m with
  | zero => simp [cellsFrom]
  | succ m ih =>
    rw [List.range_succ, List.flatMap_append, ih, Nat.mul_succ, ← cellsFrom_append]
    simp [Nat.mul_add]

/-- A block is poison as a whole. -/
theorem cellsFrom_block (k : Stacks) (blk : Nat) :
    cellsFrom k (32 * blk) 32 =
      if blk ∈ k.poison then List.replicate 32 none else (blockBytes k blk).map some := by
  have number (i : Nat) (h : i < 32) : (32 * blk + i) / 32 = blk := by omega
  have cells : cellsFrom k (32 * blk) 32 =
      (List.range 32).map fun i => if blk ∈ k.poison then none else some (memByte k (32 * blk + i)) :=
    List.map_congr_left fun i below => by rw [cellView, number i (List.mem_range.mp below)]
  rw [cells]
  split
  · exact List.map_const' ..
  · rw [blockBytes, sparseGetAll, List.map_map]
    rfl

/-! ## A line as it is judged -/

@[simp] theorem blockBytes_length (k : Stacks) (blk : Nat) : (blockBytes k blk).length = 32 := by
  simp [blockBytes, sparseGetAll]

theorem lineContent_half (k : Stacks) (line h : Nat) (half : h < 2) :
    ((lineContent k line).bytes.drop (32 * h)).take 32 = blockBytes k (2 * line + h) := by
  match h, half with
  | 0, _ => exact List.take_left' (blockBytes_length k _)
  | 1, _ =>
    have high : ((lineContent k line).bytes.drop (32 * 1)) = blockBytes k (2 * line + 1) :=
      List.drop_left' (blockBytes_length k _)
    rw [high, List.take_of_length_le (Nat.le_of_eq (blockBytes_length k _))]

theorem halfDecoded_lineContent (k : Stacks) (line h : Nat) (half : h < 2) :
    halfDecoded (lineContent k line) noErr h = if 2 * line + h ∈ k.poison then .poison else .clean := by
  have mark : (if h = 0 then (lineContent k line).bad0 else (lineContent k line).bad1) =
      decide (2 * line + h ∈ k.poison) := by
    match h, half with
    | 0, _ | 1, _ => rfl
  have errs : (if h = 0 then noErr.cw0 else noErr.cw1) = [] := ite_self _
  rw [halfDecoded, lineContent_half k line h half, mark, errs]
  by_cases bad : 2 * line + h ∈ k.poison
  · simp only [bad, decide_true, ledgerArrive_poison, if_true]
  · simp only [bad, decide_false, ledgerArrive_clean _ (blockBytes_length k _), if_false]

theorem halfView_lineContent (k : Stacks) (line h : Nat) (half : h < 2) :
    halfView (lineContent k line) noErr h = cellsFrom k (32 * (2 * line + h)) 32 := by
  rw [cellsFrom_block, halfView, halfDecoded_lineContent k line h half]
  by_cases bad : 2 * line + h ∈ k.poison
  · simp only [bad, if_true]
  · simp only [bad, if_false, lineContent_half k line h half]

/-- A read without errors passes the line on, and its judgement changes nothing (R347, R351, R352). -/
theorem judgeRead_lineContent (i : Fin 16) (k : Stacks) (line : Nat) (again : List LineErr) (s : State) :
    judgeRead i line (lineContent k line) noErr again s =
      ({ view := cellsFrom k (64 * line) 64, tagOk := true }, s) := by
  have tag : (judge (lineContent k line) noErr).2 = .clean := tagArrive_clean _
  have view : readAns (lineContent k line) noErr = { view := cellsFrom k (64 * line) 64, tagOk := true } := by
    have whole := cellsFrom_append k (64 * line) 32 32
    simp only [readAns, tag, halfView_lineContent k line 0 (by omega), halfView_lineContent k line 1 (by omega)]
    rw [show 32 * (2 * line + 0) = 64 * line by omega, show 32 * (2 * line + 1) = 64 * line + 32 by omega, whole]
    rfl
  have found : worst (judge (lineContent k line) noErr) = .clean ∨
      worst (judge (lineContent k line) noErr) = .poison := by
    simp only [worst, tag]
    simp only [judge, halfDecoded_lineContent k line 0 (by omega), halfDecoded_lineContent k line 1 (by omega)]
    split <;> split <;> simp
  rcases found with clean | poison
  · simp only [judgeRead, clean, view]
  · simp only [judgeRead, poison, view]

/-! ## The bytes of a request -/

/-- Bytes with their offsets, where `g` gives one. -/
def offered (g : Nat → Option Byte) (l : List Nat) : List (Nat × Byte) :=
  l.filterMap fun o => (g o).map fun b => (o, b)

theorem reqByte_append (l m : List (Nat × Byte)) (o : Nat) :
    reqByte (l ++ m) o = (reqByte l o).or (reqByte m o) := by
  simp [reqByte, List.find?_append, Option.map_or]

theorem reqByte_offered (g : Nat → Option Byte) (l : List Nat) (o : Nat) :
    reqByte (offered g l) o = if o ∈ l then g o else none := by
  induction l with
  | nil => rfl
  | cons n l ih =>
    cases e : g n with
    | none =>
      have step : offered g (n :: l) = offered g l := by simp [offered, e]
      rw [step, ih]
      by_cases same : o = n
      · simp [same, e]
      · simp [same]
    | some b =>
      have step : offered g (n :: l) = (n, b) :: offered g l := by simp [offered, e]
      rw [step]
      by_cases same : o = n
      · simp [reqByte, same, e]
      · have other : ¬n = o := fun h => same h.symm
        have tail : reqByte ((n, b) :: offered g l) o = reqByte (offered g l) o := by simp [reqByte, other]
        rw [tail, ih]
        simp [same]

theorem filterMap_congr_mem {α β : Type} {f g : α → Option β} {l : List α} (same : ∀ x ∈ l, f x = g x) :
    l.filterMap f = l.filterMap g := by
  induction l with
  | nil => rfl
  | cons x l ih =>
    rw [List.filterMap_cons, List.filterMap_cons, same x List.mem_cons_self,
      ih fun y here => same y (List.mem_cons_of_mem _ here)]

theorem zipIdx_map_range {α : Type} (f : Nat → α) (n : Nat) :
    ((List.range n).map f).zipIdx = (List.range n).map fun i => (f i, i) := by
  refine List.ext_getElem (by simp) fun i _ _ => ?_
  simp

/-- A byte that one of the two halves of a line brings. -/
theorem reqByte_halves (g : Nat → Option Byte) (o : Nat) (h : o < 64) :
    reqByte (offered g (List.range' (32 * 0) 32) ++ offered g (List.range' (32 * 1) 32)) o = g o := by
  rw [reqByte_append, reqByte_offered, reqByte_offered]
  by_cases low : o < 32
  · have high : ¬(32 ≤ o ∧ o < 64) := by omega
    simp [List.mem_range'_1, low, high]
  · have high : 32 ≤ o ∧ o < 64 := by omega
    simp [List.mem_range'_1, low, high]

end Sys2Proof.Machine
end

section
/-! PROOFS. One subchannel at rest takes a request: the request enters its queue, issues as the only one that may, and a
read returns (chapter 14, R348, R349, R356 to R362). What such an access depends on stays as it is. -/

namespace Sys2Proof.Machine

/-! ## What an access depends on -/

/-- What decides how an access to DRAM is served, beside the requests that Stacks holds and the bytes of DRAM; the
channels and the bays, which no access changes, stand with it. -/
structure Service where
  chans : Vector Chan 512
  bays : Vector Bay 16
  power : Power
  tick : Nat
  live : Page → RegStore
  serves : Bool × Bool × Bool
  cap : Nat
  sub : Nat → Option (Fin 16)
  bank : Nat → Nat
  ready : Fin 16 → SubState × Nat
  returned : List (Requester × Nat × List (Option Byte))

def State.service (s : State) : Service where
  chans := s.chans
  bays := s.bays
  power := s.power
  tick := s.tick
  live := fun p => (s.page p).live
  serves := (s.stk.initDone, s.stk.rateBusy, s.stk.sref)
  cap := s.stk.cap
  sub := subOf s.stk
  bank := bankOf s.stk
  ready := fun i => ((s.sub i).state, (s.sub i).pauseUntil)
  returned := s.stk.returned

section
variable {s t : State} (same : t.service = s.service)
include same

theorem service_pageUp (p : Page) : pageUp t p = pageUp s p := by
  have power : t.power = s.power := congrArg Service.power same
  simp only [pageUp, domUp, power]

theorem service_memServes : memServes t = memServes s := by
  have power : t.power = s.power := congrArg Service.power same
  have serves : (t.stk.initDone, t.stk.rateBusy, t.stk.sref) = (s.stk.initDone, s.stk.rateBusy, s.stk.sref) :=
    congrArg Service.serves same
  obtain ⟨done, rate, sref⟩ : t.stk.initDone = s.stk.initDone ∧ t.stk.rateBusy = s.stk.rateBusy ∧
      t.stk.sref = s.stk.sref := by simpa using serves
  simp only [memServes, service_pageUp same, domUp, power, done, rate, sref]

theorem service_ready (i : Fin 16) :
    (t.sub i).state = (s.sub i).state ∧ (t.sub i).pauseUntil = (s.sub i).pauseUntil := by
  have ready : ((t.sub i).state, (t.sub i).pauseUntil) = ((s.sub i).state, (s.sub i).pauseUntil) :=
    congrFun (congrArg Service.ready same) i
  simpa using ready

theorem service_canIssue (i : Fin 16) : canIssue t i = canIssue s i := by
  have tick : t.tick = s.tick := congrArg Service.tick same
  obtain ⟨state, pause⟩ := service_ready same i
  simp only [canIssue, service_memServes same, state, pause, tick]

theorem service_lineAns (line : Nat) : lineAns t line = lineAns s line := by
  have power : t.power = s.power := congrArg Service.power same
  have cap : t.stk.cap = s.stk.cap := congrArg Service.cap same
  have sub : subOf t.stk line = subOf s.stk line := congrFun (congrArg Service.sub same) line
  simp only [lineAns, domUp, power, cap, sub]
  cases subOf s.stk line with
  | none => rfl
  | some i => simp only [(service_ready same i).1]

theorem service_portMaxq (p : StkPort) : portMaxq t p = portMaxq s p := by
  have live : (t.page .stk).live = (s.page .stk).live := congrFun (congrArg Service.live same) .stk
  simp only [portMaxq, Machine.live, liveWord, live]

theorem service_bankOf (line : Nat) : bankOf t.stk line = bankOf s.stk line :=
  congrFun (congrArg Service.bank same) line

theorem service_returnedView (r : Requester) (line : Nat) :
    returnedView t.stk r line = returnedView s.stk r line := by
  have returned : t.stk.returned = s.stk.returned := congrArg Service.returned same
  simp only [returnedView, returned]

end

/-! ## What leaves it as it is -/

theorem setEvt_service (s : State) (p : Page) (n : Nat) : (setEvt s p n).service = s.service := by
  have live (q : Page) : ((setEvt s p n).page q).live = (s.page q).live := (setEvt_stores s p n q).1
  simp [State.service, live]

theorem lineStored_frame (from_ : Requester) (line : Nat) (s : State) :
    (lineStored from_ line s).service = s.service ∧ (lineStored from_ line s).stk = s.stk := by
  simp only [lineStored]
  split
  · split <;> exact ⟨rfl, rfl⟩
  · exact ⟨rfl, rfl⟩

theorem modSub_service (s : State) (i : Fin 16) (f : Sub → Sub) (state : (f (s.sub i)).state = (s.sub i).state)
    (pause : (f (s.sub i)).pauseUntil = (s.sub i).pauseUntil) : (s.modSub i f).service = s.service := by
  have ready : (s.modSub i f).service.ready = s.service.ready := by
    funext j
    show (((s.modSub i f).sub j).state, ((s.modSub i f).sub j).pauseUntil) = ((s.sub j).state, (s.sub j).pauseUntil)
    by_cases e : j = i
    · rw [e, State.sub_modSub, state, pause]
    · rw [State.sub_modSub_ne s i j f e]
  exact congrArg (fun r => { s.service with ready := r }) ready

/-- A write of a line changes bytes, poison marks and tags. -/
theorem storeLine_frame (x : QReq) (k : Stacks) :
    storeLine x k =
      { k with mem := (storeLine x k).mem, poison := (storeLine x k).poison, tags := (storeLine x k).tags } := by
  have half (h : Nat) (bad : Bool) (k : Stacks) :
      storeHalf x h bad k = { k with mem := (storeHalf x h bad k).mem, poison := (storeHalf x h bad k).poison } := by
    simp only [storeHalf]
    split <;> rfl
  rw [storeLine, half 1, half 0]
  split <;> rfl

theorem storeLine_service (x : QReq) (s : State) : (s.modStacks (storeLine x)).service = s.service := by
  have frame := storeLine_frame x s.stk
  show ({ s with stk := storeLine x s.stk } : State).service = s.service
  rw [frame]
  rfl

/-! ## A subchannel and its requests -/

/-- State `t` serves accesses as `s` does; its DRAM has the bytes and the poison marks of `k`; subchannel `i` holds
queue `q` and the issued reads `rd`, `w` waits at the ports, and the other subchannels hold what they hold in `s`. -/
structure Holds (s : State) (k : Stacks) (i : Fin 16) (q : List QReq) (rd : List (QReq × LineData))
    (w : List (StkPort × StkReq × Bool)) (t : State) : Prop where
  service : t.service = s.service
  cells : t.stk.mem = k.mem ∧ t.stk.poison = k.poison
  queue : (t.sub i).queue = q
  reads : (t.sub i).reads = rd
  waiting : t.stk.waiting = w
  others : ∀ j, j ≠ i → t.sub j = s.sub j

variable {s t t' : State} {k : Stacks} {i : Fin 16} {q : List QReq} {rd : List (QReq × LineData)}
  {w w' : List (StkPort × StkReq × Bool)}

/-- A change of what no access depends on, or of what waits. -/
theorem Holds.of_same (h : Holds s k i q rd w t) (service : t'.service = t.service) (subs : t'.stk.subs = t.stk.subs)
    (cells : t'.stk.mem = t.stk.mem ∧ t'.stk.poison = t.stk.poison) (waiting : t'.stk.waiting = w') :
    Holds s k i q rd w' t' where
  service := service.trans h.service
  cells := ⟨cells.1.trans h.cells.1, cells.2.trans h.cells.2⟩
  queue := by rw [State.sub, subs]; exact h.queue
  reads := by rw [State.sub, subs]; exact h.reads
  waiting := waiting
  others := fun j e => by rw [State.sub, subs]; exact h.others j e

theorem Holds.modSub {q' : List QReq} {rd' : List (QReq × LineData)} (h : Holds s k i q rd w t) (f : Sub → Sub)
    (state : (f (t.sub i)).state = (t.sub i).state) (pause : (f (t.sub i)).pauseUntil = (t.sub i).pauseUntil)
    (queue : (f (t.sub i)).queue = q') (reads : (f (t.sub i)).reads = rd') :
    Holds s k i q' rd' w (t.modSub i f) where
  service := (modSub_service t i f state pause).trans h.service
  cells := h.cells
  queue := by rw [State.sub_modSub, queue]
  reads := by rw [State.sub_modSub, reads]
  waiting := h.waiting
  others := fun j e => (State.sub_modSub_ne t i j f e).trans (h.others j e)

theorem Holds.modPort (h : Holds s k i q rd w t) (p : StkPort) (f : PortCnt → PortCnt) :
    Holds s k i q rd w (t.modPort p f) := h.of_same rfl rfl ⟨rfl, rfl⟩ h.waiting

theorem Holds.modWaiting (h : Holds s k i q rd w t)
    (f : List (StkPort × StkReq × Bool) → List (StkPort × StkReq × Bool)) :
    Holds s k i q rd (f w) (t.modStacks fun k => { k with waiting := f k.waiting }) :=
  h.of_same rfl rfl ⟨rfl, rfl⟩ (congrArg f h.waiting)

theorem Holds.setEvt (h : Holds s k i q rd w t) (p : Page) (n : Nat) : Holds s k i q rd w (setEvt t p n) :=
  h.of_same (setEvt_service t p n) (by rw [setEvt_stacks]) (by rw [setEvt_stacks]; exact ⟨rfl, rfl⟩)
    (by rw [setEvt_stacks]; exact h.waiting)

theorem Holds.lineStored (h : Holds s k i q rd w t) (r : Requester) (line : Nat) :
    Holds s k i q rd w (lineStored r line t) := by
  obtain ⟨service, stk⟩ := lineStored_frame r line t
  exact h.of_same service (by rw [stk]) (by rw [stk]; exact ⟨rfl, rfl⟩) (by rw [stk]; exact h.waiting)

/-! ## A request enters (R348, R356, R361) -/

/-- A request whose ledger words travel without errors and are no poison. -/
def SoundReq (r : StkReq) : Prop := r.err0 = [] ∧ r.err1 = [] ∧ r.poison0 = false ∧ r.poison1 = false

/-- The ledger words of a sound write bring its bytes. -/
theorem arriveHalf_sound (p : StkPort) (r : StkReq) (h : Nat) (s : State) (sound : SoundReq r) :
    arriveHalf p r h s = (s, offered (reqByte r.bytes) (List.range' (32 * h) 32), false) := by
  obtain ⟨err0, err1, poison0, poison1⟩ := sound
  have errs : (if h = 0 then r.err0 else r.err1) = [] := by rw [err0, err1, ite_self]
  have mark : (if h = 0 then r.poison0 else r.poison1) = false := by rw [poison0, poison1, ite_self]
  have word := ledgerArrive_clean ((reqHalf r.bytes h).map fun x => x.getD 0) (by simp [reqHalf])
  have offers : offered (reqByte r.bytes) (List.range' (32 * h) 32) =
      (List.range 32).filterMap fun i => (reqByte r.bytes (32 * h + i)).map fun b => (32 * h + i, b) := by
    rw [offered, List.range'_eq_map_range, List.filterMap_map]
    rfl
  simp only [arriveHalf, errs, mark, word, offers]
  split
  · rename_i silent
    have absent (i : Nat) (below : i ∈ List.range 32) : reqByte r.bytes (32 * h + i) = none := by
      simpa using List.all_eq_true.mp silent _ (List.mem_map_of_mem below)
    have empty :
        ((List.range 32).filterMap fun i => (reqByte r.bytes (32 * h + i)).map fun b => (32 * h + i, b)) = [] :=
      List.filterMap_eq_nil_iff.mpr fun i below => by rw [absent i below]; rfl
    rw [empty]
  · have brought : ((reqHalf r.bytes h).zip ((reqHalf r.bytes h).map fun x => x.getD 0)).zipIdx =
        (List.range 32).map fun i => ((reqByte r.bytes (32 * h + i), (reqByte r.bytes (32 * h + i)).getD 0), i) := by
      rw [reqHalf, List.map_map, List.zip_map', zipIdx_map_range]
      rfl
    have kept (i : Nat) : (if (reqByte r.bytes (32 * h + i)).isSome then
        some (32 * h + i, (reqByte r.bytes (32 * h + i)).getD 0) else none) =
        (reqByte r.bytes (32 * h + i)).map fun b => (32 * h + i, b) := by
      cases reqByte r.bytes (32 * h + i) <;> rfl
    rw [brought, List.filterMap_map]
    simp only [Function.comp_def, kept]
    rfl

/-- A sound request as its queue holds it. -/
def entered (p : StkPort) (r : StkReq) (fetch : Bool) (s : State) : QReq :=
  let half (h : Nat) := if r.write then offered (reqByte r.bytes) (List.range' (32 * h) 32) else []
  queued s p r fetch (half 0, false) (half 1, false)

theorem inorderEnter_frame (x : QReq) (c : Sub) :
    inorderEnter x c =
      { c with inorder := (inorderEnter x c).inorder, inorderCnt := (inorderEnter x c).inorderCnt } := by
  simp only [inorderEnter]
  split <;> rfl

theorem enterQueue_sound (p : StkPort) (r : StkReq) (fetch : Bool) (i : Fin 16) (s : State) (sound : SoundReq r) :
    enterQueue p r fetch i s =
      (let x := entered p r fetch s
      let s2 := s.modSub i fun c => { inorderEnter x c with queue := (inorderEnter x c).queue ++ [x] }
      let s3 := s2.modPort p fun c => { c with req := c.req + 1, peak := max c.peak (portNow s2.stk p) }
      let s4 :=
        if x.merge then s3.modStacks fun k => { k with waiting := k.waiting ++ [fetchReq r] } else s3
      if p = 4 then s4 else idleNow s4) := by
  simp only [enterQueue, entered, arriveHalf_sound p r _ _ sound]
  by_cases write : r.write = true <;> simp only [write, if_true, if_false, Bool.false_eq_true]

/-- A sound request stands last in its queue; a write of a part of a line calls for its read. -/
theorem Holds.enter (h : Holds s k i q rd w t) (p : StkPort) (r : StkReq) (fetch : Bool) (sound : SoundReq r) :
    Holds s k i (q ++ [entered p r fetch t]) rd (w ++ if (entered p r fetch t).merge then [fetchReq r] else [])
      (enterQueue p r fetch i t) := by
  rw [enterQueue_sound p r fetch i t sound]
  have frame := inorderEnter_frame (entered p r fetch t) (t.sub i)
  have stands : Holds s k i (q ++ [entered p r fetch t]) rd w (t.modSub i fun c =>
      { inorderEnter (entered p r fetch t) c with
        queue := (inorderEnter (entered p r fetch t) c).queue ++ [entered p r fetch t] }) :=
    h.modSub _ (by rw [frame]) (by rw [frame]) (by rw [frame, h.queue]) (by rw [frame]; exact h.reads)
  have idle {u : State} {v : List (StkPort × StkReq × Bool)} {q : List QReq} (h : Holds s k i q rd v u) :
      Holds s k i q rd v (if p = 4 then u else idleNow u) := by
    split
    · exact h
    · exact h.of_same rfl rfl ⟨rfl, rfl⟩ h.waiting
  refine idle ?_
  split
  · exact (stands.modPort p _).modWaiting fun l => l ++ [fetchReq r]
  · rw [List.append_nil]
    exact stands.modPort p _

/-! ## Promotion (R359) -/

/-- A request as promotion leaves it. -/
def promoted (s : State) (x : QReq) : QReq := { x with promoted := x.promoted || decide (ageLim s ≤ reqAge s x) }

theorem Holds.promote (h : Holds s k i q rd w t) : Holds s k i (q.map (promoted t)) rd w (promote i t) := by
  have marks (x : QReq) : (if (!x.promoted && decide (ageLim t ≤ reqAge t x)) = true then
      { x with promoted := true } else x) = promoted t x := by
    by_cases due : (!x.promoted && decide (ageLim t ≤ reqAge t x)) = true
    · have old : decide (ageLim t ≤ reqAge t x) = true := (Bool.and_eq_true_iff.mp due).2
      rw [if_pos due, promoted, old, Bool.or_true]
    · have unchanged : (x.promoted || decide (ageLim t ≤ reqAge t x)) = x.promoted := by
        cases done : x.promoted <;> simp_all
      rw [if_neg due, promoted, unchanged]
  have marked : Holds s k i (q.map (promoted t)) rd w (t.modSub i fun c => { c with
      queue := c.queue.map fun x =>
        if !x.promoted && decide (ageLim t ≤ reqAge t x) then { x with promoted := true } else x }) :=
    h.modSub _ rfl rfl (by simp only [marks, h.queue]) h.reads
  exact State.each_keeps (Holds s k i (q.map (promoted t)) rd w) _ _ _ (fun x _ u held => held.modPort x.port _) marked

/-! ## A request issues (R358, R361) -/

theorem letIn_nothing (s : State) (none : s.stk.waiting = []) : letIn s = s := by simp [letIn, none]

/-- The count of a late request and its event, with nothing waiting. -/
theorem Holds.issue_counts (h : Holds s k i q rd [] t) (p : StkPort) (f : PortCnt → PortCnt) (late : Bool) :
    Holds s k i q rd [] (letIn (if late then Machine.setEvt (t.modPort p f) .stk 10 else t.modPort p f)) := by
  have counted : Holds s k i q rd [] (if late then Machine.setEvt (t.modPort p f) .stk 10 else t.modPort p f) := by
    split
    · exact (h.modPort p f).setEvt .stk 10
    · exact h.modPort p f
  rwa [letIn_nothing _ counted.waiting]

/-- A read issues with what its line holds. -/
theorem Holds.issue_read (h : Holds s k i q rd [] t) (n : Nat) (x : QReq) (read : x.write = false) :
    Holds s k i (q.eraseIdx n) (rd ++ [(x, lineContent t.stk x.line)]) [] (issueReq i n x t) := by
  simp only [issueReq, read, if_false, Bool.false_eq_true]
  exact (h.modSub _ rfl rfl (by rw [h.queue]) (by rw [h.reads])).issue_counts x.port _ (reqUrgency t x == 3)

/-- What a write leaves of bytes and poison marks depends on these only. -/
theorem storeLine_cells (x : QReq) (k l : Stacks) (mem : l.mem = k.mem) (poison : l.poison = k.poison) :
    (storeLine x l).mem = (storeLine x k).mem ∧ (storeLine x l).poison = (storeLine x k).poison := by
  have half (h : Nat) (bad : Bool) (k l : Stacks) (same : l.mem = k.mem ∧ l.poison = k.poison) :
      (storeHalf x h bad l).mem = (storeHalf x h bad k).mem ∧
        (storeHalf x h bad l).poison = (storeHalf x h bad k).poison := by
    simp only [storeHalf]
    split
    · simp only [putBlock, same.1, same.2, and_self]
    · exact same
  have both := half 1 x.bad1 _ _ (half 0 x.bad0 k l ⟨mem, poison⟩)
  simp only [storeLine]
  split <;> exact both

theorem Holds.store (h : Holds s k i q rd w t) (x : QReq) :
    Holds s (storeLine x k) i q rd w (t.modStacks (storeLine x)) where
  service := (storeLine_service x t).trans h.service
  cells := storeLine_cells x k t.stk h.cells.1 h.cells.2
  queue := by rw [State.sub, State.modStacks_stk, storeLine_frame]; exact h.queue
  reads := by rw [State.sub, State.modStacks_stk, storeLine_frame]; exact h.reads
  waiting := by rw [State.modStacks_stk, storeLine_frame]; exact h.waiting
  others := fun j e => by rw [State.sub, State.modStacks_stk, storeLine_frame]; exact h.others j e

/-- A write issues, and its line takes its bytes. -/
theorem Holds.issue_write (h : Holds s k i q rd [] t) (n : Nat) (x : QReq) (write : x.write = true) :
    Holds s (storeLine x k) i (q.eraseIdx n) rd [] (issueReq i n x t) := by
  simp only [issueReq, write, if_true]
  refine Holds.issue_counts (Holds.lineStored (Holds.store ?_ x) _ _) x.port _ (reqUrgency t x == 3)
  exact h.modSub _ rfl rfl (by rw [h.queue]) h.reads

end Sys2Proof.Machine
end

section
/-! PROOFS. A line that is free is read, or written in whole or in part, at once (chapter 14, R349, R357 to R362). -/

namespace Sys2Proof.Machine

variable {s t : State} {k : Stacks} {i : Fin 16} {rd : List (QReq × LineData)}

/-! ## The only request that may issue -/

/-- A request that alone may issue goes next, whichever direction was last (R359, R362). -/
theorem nextReq_single (s : State) (c : Sub) (busy : List Nat) (y : Nat × QReq) (only : eligibleReqs c busy = [y]) :
    nextReq s c busy = some y := by
  by_cases same : y.2.write = c.dirWrite
  · simp [nextReq, only, firstReq, same]
  · simp [nextReq, only, firstReq, same]

theorem lastIssues_single (bank : Nat) (y : Nat × QReq) (last : y.1 + 1 = (s.sub i).queue.length)
    (only : eligibleReqs (s.sub i) (((s.sub i).queue.map QReq.bank).filter fun b => b != bank) = [y]) :
    lastIssues i bank s = some y := by
  simp only [lastIssues, nextReq_single _ _ _ _ only, last, if_true]

/-- A request that stands alone in its queue issues. -/
theorem lastIssues_alone (x : QReq) (bank : Nat) (queue : (s.sub i).queue = [x]) (own : x.bank = bank)
    (merge : x.merge = false) (fetch : x.fetch = false) : lastIssues i bank s = some (0, x) :=
  lastIssues_single bank (0, x) (by rw [queue]; rfl) <| by
    simp [eligibleReqs, queue, mayIssue, olderReqs, fetchFree, own, merge, fetch]

/-- Of a write of a part of a line and its read, the read issues. -/
theorem lastIssues_fetch (x y : QReq) (bank : Nat) (queue : (s.sub i).queue = [x, y]) (reads : (s.sub i).reads = [])
    (part : x.merge = true ∧ x.fetch = false) (line : x.line = y.line) (own : y.bank = bank)
    (read : y.merge = false ∧ y.fetch = true) : lastIssues i bank s = some (1, y) :=
  lastIssues_single bank (1, y) (by rw [queue]; rfl) <| by
    simp [eligibleReqs, queue, mayIssue, olderReqs, fetchFree, own, part, line, read, reads]

/-! ## Room at the ports -/

theorem Holds.hasRoom {q : List QReq} {w : List (StkPort × StkReq × Bool)} (h : Holds s k i q rd w t) (p : StkPort)
    (room : 0 < portMaxq s p) (few : q.length < queueSize) (others : ∀ x ∈ q, x.port ≠ p) :
    Machine.hasRoom t i p = true := by
  have none : portHolds q p = 0 := by
    simpa [portHolds] using others
  simp only [Machine.hasRoom, h.queue, few, none, service_portMaxq h.service, room, decide_true, Bool.and_self]

theorem Holds.entersNow (h : Holds s k i [] rd [] t) (p : StkPort) (room : 0 < portMaxq s p)
    (issues : canIssue s i = true) : Machine.entersNow p i t = true := by
  have fits := h.hasRoom p room (by decide) (by simp)
  simp [Machine.entersNow, service_canIssue h.service, issues, fits, h.waiting]

/-! ## A request that enters and issues at once -/

theorem issueNow_alone (h : Holds s k i [] rd [] t) (p : StkPort) (r : StkReq) (room : 0 < portMaxq s p)
    (issues : canIssue s i = true) (sound : SoundReq r) (whole : (entered p r false t).merge = false) :
    ∃ x u, issueNow p r i t = some (issueReq i 0 x u) ∧ Holds s k i [x] rd [] u ∧
      ∃ b, x = { entered p r false t with promoted := b } := by
  have enters := h.enter p r false sound
  rw [whole] at enters
  have stands := enters.promote
  refine ⟨_, _, ?_, stands, _, rfl⟩
  have next := lastIssues_alone _ (bankOf t.stk r.line) stands.queue rfl whole rfl
  simp only [issueNow, h.entersNow p room issues, if_true, next, Option.map_some]

/-! ## A read of a free line -/

/-- The read that issued last returns without errors. -/
theorem lastReturns_clean {q : List QReq} {w : List (StkPort × StkReq × Bool)} {x : QReq} {l : Stacks} {line : Nat}
    (h : Holds s k i q (rd ++ [(x, lineContent l line)]) w t) :
    ∃ u, lastReturns i line noErrs t = ({ view := cellsFrom l (64 * line) 64, tagOk := true }, u) ∧
      Holds s k i q rd w u := by
  have judged (u : State) := judgeRead_lineContent i l line [] u
  refine ⟨_, ?_, h.modSub (fun c => { c with reads := c.reads.dropLast }) rfl rfl h.queue
    (by rw [h.reads, List.dropLast_concat])⟩
  simp only [lastReturns, h.reads, List.getLast?_concat, noErrs, judged]

/-- Bytes as a read passes them on depend on DRAM's bytes and poison marks only. -/
theorem cellsFrom_congr (k l : Stacks) (same : l.mem = k.mem ∧ l.poison = k.poison) (a n : Nat) :
    cellsFrom l a n = cellsFrom k a n := by
  simp only [cellsFrom, cellView, memByte, same.1, same.2]

theorem memServes_of_canIssue (issues : canIssue s i = true) : memServes s = true := by
  simp only [canIssue, Bool.and_eq_true] at issues
  exact issues.1.1

theorem readLine_free (h : Holds s k i [] [] [] t) (p : StkPort) (r : Requester) (line : Nat)
    (room : 0 < portMaxq s p) (issues : canIssue s i = true) (answers : lineAns s line = .dram i)
    (fresh : returnedView s.stk r line = none) :
    ∃ u, readLine p r line noErrs t = some (cellsFrom k (64 * line) 64, u) ∧ Holds s k i [] [] [] u := by
  obtain ⟨x, u, run, stands, b, entry⟩ :=
    issueNow_alone h p (readReq r line) room issues ⟨rfl, rfl, rfl, rfl⟩ rfl
  have read : x.write = false := by rw [entry]; rfl
  have own : x.line = line := by rw [entry]; rfl
  have issued := stands.issue_read 0 x read
  rw [own] at issued
  obtain ⟨v, returns, rests⟩ := lastReturns_clean issued
  have serves : memServes t = true := by rw [service_memServes h.service, memServes_of_canIssue issues]
  refine ⟨v, ?_, rests⟩
  simp only [readLine, service_returnedView h.service, fresh, serves, service_lineAns h.service, answers, run,
    Option.map_some, returns, Bool.not_true, Bool.false_eq_true, if_false, cellsFrom_congr k u.stk stands.cells]

/-! ## A write of a free line -/

theorem admitPass_nothing {q : List QReq} (h : Holds s k i q rd [] t) : Holds s k i q rd [] (admitPass t) := by
  simp only [admitPass, h.waiting, List.foldl_nil]
  exact h.of_same rfl rfl ⟨rfl, rfl⟩ rfl

/-- The read that a write of a part of a line calls for is the only request that waits, and enters its queue. -/
theorem letIn_fetch {x : QReq} {r : StkReq} (h : Holds s k i [x] rd [fetchReq r] t) (room : 0 < portMaxq s 5)
    (port : x.port ≠ 5) (issues : canIssue s i = true) (answers : lineAns s r.line = .dram i) :
    ∃ u, Holds s k i [x, entered 5 (readReq .reRead r.line) true u] rd [] (letIn t) ∧ u.service = s.service := by
  obtain ⟨u, cleared⟩ : ∃ u, t.modStacks (fun k => { k with waiting := [] }) = u := ⟨_, rfl⟩
  have holds : Holds s k i [x] rd [] u := cleared ▸ h.of_same rfl rfl ⟨rfl, rfl⟩ rfl
  have fits : hasRoom u i 5 = true := holds.hasRoom 5 room (show 1 < queueSize by decide) (by simpa using port)
  have there : lineAns u r.line = .dram i := by rw [service_lineAns holds.service, answers]
  have enters : Holds s k i [x, entered 5 (readReq .reRead r.line) true u] rd []
      (enterQueue 5 (readReq .reRead r.line) true i u) := holds.enter 5 _ true ⟨rfl, rfl, rfl, rfl⟩
  have once : admitPass t = (enterQueue 5 (readReq .reRead r.line) true i u).modStacks fun k =>
      { k with waiting := [] ++ k.waiting } := by
    have line : (readReq .reRead r.line).line = r.line := rfl
    simp only [admitPass, h.waiting, cleared, List.foldl_cons, List.foldl_nil, admitOne, fetchReq, List.contains_nil,
      Bool.false_eq_true, if_false, line, there, fits, if_true]
  have serves : memServes t = true := by rw [service_memServes h.service, memServes_of_canIssue issues]
  have passes : letIn t = admitPass (admitPass t) := by simp [letIn, serves, h.waiting]
  refine ⟨u, ?_, holds.service⟩
  rw [passes, once]
  exact admitPass_nothing (enters.modWaiting ([] ++ ·))

/-- A write of a part of a line stands in its queue, and behind it the read that it calls for. -/
theorem part_stands (h : Holds s k i [] rd [] t) (p : StkPort) (r : StkReq) (room5 : 0 < portMaxq s 5) (other : p ≠ 5)
    (issues : canIssue s i = true) (answers : lineAns s r.line = .dram i) (sound : SoundReq r)
    (merge : (entered p r false t).merge = true) :
    ∃ x y, Holds s k i [x, y] rd [] (promote i (letIn (enterQueue p r false i t))) ∧
      (∃ b, x = { entered p r false t with promoted := b }) ∧ y.line = r.line ∧ y.bank = bankOf t.stk r.line ∧
      y.write = false ∧ y.merge = false ∧ y.fetch = true := by
  have enters := h.enter p r false sound
  rw [merge] at enters
  obtain ⟨v, lets, service⟩ := letIn_fetch enters room5 other issues answers
  have bank : bankOf v.stk r.line = bankOf t.stk r.line := by
    rw [service_bankOf service, service_bankOf h.service]
  exact ⟨_, _, lets.promote, ⟨_, rfl⟩, rfl, bank, rfl, rfl, rfl⟩

/-- A write of a part of a line, its read and the merged write pass at once. -/
theorem partNow_free (h : Holds s k i [] [] [] t) (p : StkPort) (r : StkReq) (room : 0 < portMaxq s p)
    (room5 : 0 < portMaxq s 5) (other : p ≠ 5) (issues : canIssue s i = true) (answers : lineAns s r.line = .dram i)
    (sound : SoundReq r) (write : r.write = true) (part : wholeLine r.bytes = false) :
    ∃ x u, partNow p r i noErrs t = some u ∧
      Holds s (storeLine (mergeWrite { view := cellsFrom k (64 * r.line) 64, tagOk := true } x) k) i [] [] [] u ∧
      ∃ b, x = { entered p r false t with promoted := b } := by
  have merge : (entered p r false t).merge = true := by simp [entered, queued, write, part]
  obtain ⟨x, y, stands, ⟨b, entry⟩, line, bank, read, plain, fetch⟩ :=
    part_stands h p r room5 other issues answers sound merge
  have own : x.line = r.line := by rw [entry]; rfl
  have waits : x.merge = true ∧ x.fetch = false := by rw [entry]; exact ⟨merge, rfl⟩
  have first := lastIssues_fetch x y (bankOf t.stk r.line) stands.queue stands.reads waits (own.trans line.symm) bank
    ⟨plain, fetch⟩
  have issued := stands.issue_read 1 y read
  rw [line] at issued
  obtain ⟨v, returns, held⟩ := lastReturns_clean issued
  rw [cellsFrom_congr k _ stands.cells] at returns
  obtain ⟨a, answer⟩ : ∃ a : ReadAns, a = { view := cellsFrom k (64 * r.line) 64, tagOk := true } := ⟨_, rfl⟩
  rw [← answer] at returns ⊢
  have merged : Holds s k i [mergeWrite a x] [] []
      (v.modSub i fun c => { c with queue := mergeFirst r.line a c.queue }) :=
    held.modSub _ rfl rfl (by simp [held.queue, mergeFirst, waits, own]) held.reads
  have next := lastIssues_alone (mergeWrite a x) (bankOf t.stk r.line) merged.queue (by rw [entry]; rfl) rfl waits.2
  refine ⟨x, _, ?_, merged.issue_write 0 (mergeWrite a x) (by rw [entry]; exact write), b, entry⟩
  simp only [partNow, h.entersNow p room issues, h.entersNow 5 room5 issues, Bool.and_self, if_true, first, fetch,
    returns, next, Option.map_some]

end Sys2Proof.Machine
end

section
/-! PROOFS. Transfers to and from lines that are free (chapter 14, R349): what a read gives, and what a write leaves in
each byte of DRAM. -/

namespace Sys2Proof.Machine

/-! ## Stacks at rest again -/

/-- State `t` serves accesses as `s` does and holds the same requests. -/
structure Rests (s t : State) : Prop where
  service : t.service = s.service
  subs : ∀ j, (t.sub j).queue = (s.sub j).queue ∧ (t.sub j).reads = (s.sub j).reads
  waiting : t.stk.waiting = s.stk.waiting

theorem Rests.refl (s : State) : Rests s s := ⟨rfl, fun _ => ⟨rfl, rfl⟩, rfl⟩

theorem Rests.trans {s t u : State} (a : Rests s t) (b : Rests t u) : Rests s u where
  service := b.service.trans a.service
  subs := fun j => ⟨(b.subs j).1.trans (a.subs j).1, (b.subs j).2.trans (a.subs j).2⟩
  waiting := b.waiting.trans a.waiting

theorem Rests.lineFree {s t : State} (h : Rests s t) {line : Nat} (free : LineFree s line) : LineFree t line := by
  obtain ⟨i, answers, issues, queue, reads⟩ := free
  refine ⟨i, ?_, ?_, (h.subs i).1.trans queue, (h.subs i).2.trans reads⟩
  · rw [service_lineAns h.service, answers]
  · rw [service_canIssue h.service, issues]

/-- A subchannel that holds no request, as an access finds it. -/
theorem Holds.idle {s : State} {i : Fin 16} (queue : (s.sub i).queue = []) (reads : (s.sub i).reads = [])
    (waiting : s.stk.waiting = []) : Holds s s.stk i [] [] [] s :=
  ⟨rfl, ⟨rfl, rfl⟩, queue, reads, waiting, fun _ _ => rfl⟩

theorem Holds.rests {s t : State} {k : Stacks} {i : Fin 16} (before : Holds s s.stk i [] [] [] s)
    (h : Holds s k i [] [] [] t) : Rests s t where
  service := h.service
  subs := fun j => by
    by_cases e : j = i
    · rw [e, h.queue, h.reads, before.queue, before.reads]
      exact ⟨rfl, rfl⟩
    · rw [h.others j e]
      exact ⟨rfl, rfl⟩
  waiting := h.waiting.trans before.waiting.symm

/-- The lines of a list are free, ports P2 and P5 may each hold a request in a queue, and no request waits for Stacks at
its ports. -/
structure LinesFree (s : State) (l : List Nat) : Prop where
  lines : ∀ line ∈ l, LineFree s line
  ports : 0 < portMaxq s 2 ∧ 0 < portMaxq s 5
  waiting : s.stk.waiting = []

theorem Rests.linesFree {s t : State} (h : Rests s t) {l m : List Nat} (free : LinesFree s l) (part : m ⊆ l) :
    LinesFree t m where
  lines := fun line here => h.lineFree (free.lines line (part here))
  ports := by rw [service_portMaxq h.service, service_portMaxq h.service]; exact free.ports
  waiting := h.waiting.trans free.waiting

/-! ## Reading lines -/

section
variable {s : State} {r : Requester}

theorem readLine_linesFree {line : Nat} (free : LinesFree s [line]) (fresh : returnedView s.stk r line = none) :
    ∃ u, readLine 2 r line noErrs s = some (cellsFrom s.stk (64 * line) 64, u) ∧ Rests s u ∧
      u.stk.mem = s.stk.mem ∧ u.stk.poison = s.stk.poison := by
  obtain ⟨i, answers, issues, queue, reads⟩ := free.lines line List.mem_cons_self
  have idle := Holds.idle queue reads free.waiting
  obtain ⟨u, run, held⟩ := readLine_free idle 2 r line free.ports.1 issues answers fresh
  exact ⟨u, run, idle.rests held, held.cells⟩

theorem readLines_concat (p : StkPort) (first line : Nat) (l : List Nat) :
    readLines p r first [] (l ++ [line]) s =
      (readLines p r first [] l s).bind fun y => (readLine p r line noErrs y.2).map fun z => (y.1 ++ z.1, z.2) := by
  unfold readLines
  rw [List.foldl_append]
  cases List.foldl _ _ l <;> rfl

theorem readLines_linesFree (first : Nat) (l : List Nat) (free : LinesFree s l)
    (fresh : ∀ line, returnedView s.stk r line = none) :
    ∃ u, readLines 2 r first [] l s = some (l.flatMap fun line => cellsFrom s.stk (64 * line) 64, u) ∧ Rests s u ∧
      u.stk.mem = s.stk.mem ∧ u.stk.poison = s.stk.poison := by
  obtain ⟨m, turned⟩ : ∃ m : List Nat, l = m.reverse := ⟨l.reverse, l.reverse_reverse.symm⟩
  subst turned
  induction m with
  | nil => exact ⟨s, rfl, .refl s, rfl, rfl⟩
  | cons line m ih =>
    rw [List.reverse_cons] at free ⊢
    obtain ⟨t, run, rests, cells⟩ := ih ((Rests.refl s).linesFree free (List.subset_append_left _ [line]))
    obtain ⟨u, last, rests', cells'⟩ := readLine_linesFree (r := r)
      (rests.linesFree free (List.subset_append_right _ [line]))
      (by rw [service_returnedView rests.service]; exact fresh line)
    refine ⟨u, ?_, rests.trans rests', cells'.1.trans cells.1, cells'.2.trans cells.2⟩
    rw [readLines_concat, run]
    simp only [Option.bind_some, last, Option.map_some, List.flatMap_append, List.flatMap_singleton,
      cellsFrom_congr s.stk t.stk cells]

/-! ## A read that leaves the device (R384) -/

/-- A block that picks up no error on its way out leaves as it was read. -/
theorem egressBlock_cells (k : Stacks) (blk : Nat) :
    egressBlock (cellsFrom k (32 * blk) 32) [] = (.clean, cellsFrom k (32 * blk) 32) := by
  rw [cellsFrom_block]
  by_cases bad : blk ∈ k.poison
  · rw [if_pos bad]
    rfl
  · have word := ledgerArrive_clean (blockBytes k blk) (blockBytes_length k blk)
    simp [bad, egressBlock, Function.comp_def, word]

theorem linesOf_cells (k : Stacks) (a n : Nat) (any : 0 < n) :
    (linesOf a n).flatMap (fun line => cellsFrom k (64 * line) 64) =
      cellsFrom k (64 * (a / 64)) (64 * ((a + n - 1) / 64 - a / 64 + 1)) := by
  rw [linesOf, if_neg (by omega), List.flatMap_map, cellsFrom_pieces]

theorem blocksOf_cells (k : Stacks) (a n : Nat) (any : 0 < n) :
    (blocksOf a n).map (fun x => egressBlock (((cellsFrom k (64 * (a / 64))
      (64 * ((a + n - 1) / 64 - a / 64 + 1))).drop (32 * x.2 - a / 64 * 64)).take 32) []) =
      (List.range ((a + n - 1) / 32 - a / 32 + 1)).map fun i => (.clean, cellsFrom k (32 * (a / 32 + i)) 32) := by
  rw [blocksOf, if_neg (by omega), List.map_map]
  refine List.map_congr_left fun i below => ?_
  have bound := List.mem_range.mp below
  have place : 64 * (a / 64) + (32 * (a / 32 + i) - a / 64 * 64) = 32 * (a / 32 + i) := by omega
  show egressBlock (((cellsFrom k (64 * (a / 64)) (64 * ((a + n - 1) / 64 - a / 64 + 1))).drop
    (32 * (a / 32 + i) - a / 64 * 64)).take 32) [] = _
  rw [cellsFrom_part _ _ _ _ _ (by omega), place, egressBlock_cells]

theorem each_egressCount_clean (unit : Nat) (l : List Nat) (f : Nat → List (Option Byte)) (s : State) :
    s.each (l.map fun i => (Decoded.clean, f i)) (fun x => egressCount unit x.1) = s := by
  induction l with
  | nil => rfl
  | cons i l ih => exact ih

theorem egressRead_linesFree {a n : Nat} (unit base : Nat) (any : 0 < n) (free : LinesFree s (linesOf a n))
    (fresh : ∀ line, returnedView s.stk r line = none) :
    ∃ u, egressRead r unit base a n [] [] s = some (cellsFrom s.stk a n, u) ∧ Rests s u ∧
      u.stk.mem = s.stk.mem ∧ u.stk.poison = s.stk.poison := by
  obtain ⟨u, run, rests, cells⟩ := readLines_linesFree (base / 64) (linesOf a n) free fresh
  refine ⟨u, ?_, rests, cells⟩
  simp only [egressRead, run, Option.map_some, linesOf_cells _ a n any, List.find?_nil, Option.map_none,
    Option.getD_none, blocksOf_cells _ a n any, each_egressCount_clean]
  rw [List.flatMap_map, cellsFrom_pieces, cellsFrom_part _ _ _ _ _ (by omega), Nat.div_add_mod]

end

/-! ## What a write leaves in each byte (R347, R349) -/

theorem mem_setMember_ne (l : List Nat) (n m : Nat) (on : Bool) (h : m ≠ n) : m ∈ setMember l n on ↔ m ∈ l := by
  induction l with
  | nil => cases on <;> simp [setMember, h]
  | cons o l ih =>
    simp only [setMember]
    split
    · rename_i e
      cases on <;> simp [e, h]
    · split
      · cases on <;> simp [h]
      · simp [ih]

theorem storeLine_poison (x : QReq) (k : Stacks) (blk : Nat) (other : blk / 2 ≠ x.line) :
    blk ∈ (storeLine x k).poison ↔ blk ∈ k.poison := by
  have half (h : Nat) (small : h < 2) (bad : Bool) (k : Stacks) :
      blk ∈ (storeHalf x h bad k).poison ↔ blk ∈ k.poison := by
    simp only [storeHalf]
    split
    · exact mem_setMember_ne _ _ _ _ (by omega)
    · rfl
  have both := (half 1 (by omega) x.bad1 (storeHalf x 0 x.bad0 k)).trans (half 0 (by omega) x.bad0 k)
  simp only [storeLine]
  split <;> exact both

theorem memByte_storeLine (x : QReq) (k : Stacks) (a : Nat) (w : memWf k = true) :
    memByte (storeLine x k) a =
      if a / 64 = x.line ∧ touchesHalf x.bytes (a % 64 / 32) = true then (reqByte x.bytes (a % 64)).getD 0
      else memByte k a := by
  have tag : memByte (storeLine x k) a = memByte (storeHalf x 1 x.bad1 (storeHalf x 0 x.bad0 k)) a := by
    simp only [storeLine]
    split <;> rfl
  rw [tag, memByte_storeHalf _ _ _ _ _ (storeHalf_wf x 0 x.bad0 k w), memByte_storeHalf _ _ _ _ _ w]
  by_cases own : a / 64 = x.line
  · rcases (by omega : a % 64 / 32 = 0 ∨ a % 64 / 32 = 1) with low | high
    · have place : 32 * 0 + (a - 32 * (2 * x.line + 0)) = a % 64 := by omega
      have above : ¬32 * (2 * x.line + 1) ≤ a := by omega
      have inside : 32 * (2 * x.line + 0) ≤ a ∧ a < 32 * (2 * x.line + 0) + 32 := by omega
      simp only [own, low, above, inside, place, and_true, true_and, and_false, false_and, if_false]
    · have place : 32 * 1 + (a - 32 * (2 * x.line + 1)) = a % 64 := by omega
      have inside : 32 * (2 * x.line + 1) ≤ a ∧ a < 32 * (2 * x.line + 1) + 32 := by omega
      have below : ¬a < 32 * (2 * x.line + 0) + 32 := by omega
      simp only [own, high, below, inside, place, and_true, true_and, and_false, if_false]
  · have above : ¬(32 * (2 * x.line + 1) ≤ a ∧ a < 32 * (2 * x.line + 1) + 32) := by omega
    have below : ¬(32 * (2 * x.line + 0) ≤ a ∧ a < 32 * (2 * x.line + 0) + 32) := by omega
    simp only [own, above, below, and_false, false_and, if_false]

theorem touchesHalf_iff (bytes : List (Nat × Byte)) (h : Nat) :
    touchesHalf bytes h = true ↔ ∃ o, o / 32 = h ∧ (reqByte bytes o).isSome = true := by
  simp only [touchesHalf, reqHalf, List.any_map, List.any_eq_true, List.mem_range, Function.comp_apply]
  constructor
  · rintro ⟨i, below, brings⟩
    exact ⟨32 * h + i, by omega, brings⟩
  · rintro ⟨o, place, brings⟩
    exact ⟨o % 32, by omega, by rwa [← place, Nat.div_add_mod]⟩

/-- The byte that a write puts at an offset of its line: none in a half that it does not touch, else the one that it
brings, or what the line held, or 0 for poison. -/
def mergedByte (bytes : List (Nat × Byte)) (k : Stacks) (line o : Nat) : Option Byte :=
  if touchesHalf bytes (o / 32) then some (((reqByte bytes o).or (cellView k (64 * line + o))).getD 0) else none

/-- A write of bytes to a line takes DRAM from `k` to `l`. -/
structure LineWritten (line : Nat) (bytes : List (Nat × Byte)) (k l : Stacks) : Prop where
  wf : memWf l = true
  poison : ∀ blk, blk / 2 ≠ line → (blk ∈ l.poison ↔ blk ∈ k.poison)
  byte : ∀ a, memByte l a =
    if a / 64 = line then (mergedByte bytes k line (a % 64)).getD (memByte k a) else memByte k a

theorem lineWritten_storeLine {x : QReq} {k l : Stacks} {bytes : List (Nat × Byte)} {line : Nat} (own : x.line = line)
    (puts : ∀ o, o < 64 → reqByte x.bytes o = mergedByte bytes k line o)
    (cells : l.mem = (storeLine x k).mem ∧ l.poison = (storeLine x k).poison) (w : memWf k = true) :
    LineWritten line bytes k l where
  wf := by rw [memWf, cells.1]; exact storeLine_wf x k w
  poison := fun blk other => by rw [cells.2]; exact storeLine_poison x k blk (own ▸ other)
  byte := fun a => by
    have same : memByte l a = memByte (storeLine x k) a := by rw [memByte, cells.1, memByte]
    rw [same, memByte_storeLine x k a w, own]
    by_cases here : a / 64 = line
    · have put := puts (a % 64) (by omega)
      by_cases touched : touchesHalf bytes (a % 64 / 32) = true
      · rw [mergedByte, if_pos touched] at put
        have touches : touchesHalf x.bytes (a % 64 / 32) = true :=
          (touchesHalf_iff _ _).mpr ⟨a % 64, rfl, by rw [put]; rfl⟩
        rw [if_pos ⟨here, touches⟩, if_pos here, put, mergedByte, if_pos touched]
        rfl
      · have untouched : ¬touchesHalf x.bytes (a % 64 / 32) = true := fun touches => by
          obtain ⟨o, place, brings⟩ := (touchesHalf_iff _ _).mp touches
          rw [puts o (by omega), mergedByte, place, if_neg touched] at brings
          exact absurd brings (by decide)
        rw [if_neg fun both => untouched both.2, if_pos here, mergedByte, if_neg touched]
        rfl
    · rw [if_neg fun both => here both.1, if_neg here]

/-! ## A write of a free line -/

theorem reqByte_entered (p : StkPort) (r : StkReq) (s : State) (b : Bool) (o : Nat) (write : r.write = true)
    (inside : o < 64) : reqByte { entered p r false s with promoted := b }.bytes o = reqByte r.bytes o := by
  have bytes : (entered p r false s).bytes =
      offered (reqByte r.bytes) (List.range' (32 * 0) 32) ++ offered (reqByte r.bytes) (List.range' (32 * 1) 32) := by
    simp only [entered, queued, write, if_true]
  show reqByte (entered p r false s).bytes o = _
  rw [bytes, reqByte_halves _ _ inside]

theorem mergeHalf_cells (x : QReq) (k : Stacks) (line h : Nat) (half : h < 2) :
    (mergeHalf x (cellsFrom k (64 * line) 64) h).1 = offered (mergedByte x.bytes k line) (List.range' (32 * h) 32) := by
  have place (i : Nat) (below : i ∈ List.range 32) : (32 * h + i) / 32 = h := by
    have := List.mem_range.mp below
    omega
  by_cases touched : touchesHalf x.bytes h = true
  · have old : ((cellsFrom k (64 * line) 64).drop (32 * h)).take 32 = cellsFrom k (64 * line + 32 * h) 32 :=
      cellsFrom_part _ _ _ _ _ (by omega)
    simp only [mergeHalf, touched, if_true, old]
    rw [reqHalf, cellsFrom, List.zip_map', zipIdx_map_range, List.map_map, offered, List.range'_eq_map_range,
      List.filterMap_map, ← List.filterMap_eq_map]
    refine filterMap_congr_mem fun i below => ?_
    simp [mergedByte, place i below, touched, Nat.add_assoc]
  · have silent : offered (mergedByte x.bytes k line) (List.range' (32 * h) 32) = [] := by
      rw [offered, List.range'_eq_map_range, List.filterMap_map]
      refine List.filterMap_eq_nil_iff.mpr fun i below => ?_
      simp [mergedByte, place i below, touched]
    rw [silent, mergeHalf, if_neg touched]

theorem reqByte_mergeWrite (x : QReq) (k : Stacks) (line o : Nat) (inside : o < 64) :
    reqByte (mergeWrite { view := cellsFrom k (64 * line) 64, tagOk := true } x).bytes o =
      mergedByte x.bytes k line o := by
  simp only [mergeWrite, mergeHalf_cells x k line _ (by decide : 0 < 2), mergeHalf_cells x k line _ (by decide : 1 < 2)]
  exact reqByte_halves _ o inside

theorem mergedByte_congr (b c : List (Nat × Byte)) (k : Stacks) (line o : Nat) (inside : o < 64)
    (same : ∀ o, o < 64 → reqByte c o = reqByte b o) : mergedByte c k line o = mergedByte b k line o := by
  have touches : touchesHalf c (o / 32) = touchesHalf b (o / 32) := by
    refine Bool.eq_iff_iff.mpr ?_
    simp only [touchesHalf_iff]
    constructor
    · rintro ⟨n, place, brings⟩
      exact ⟨n, place, by rwa [← same n (by omega)]⟩
    · rintro ⟨n, place, brings⟩
      exact ⟨n, place, by rwa [same n (by omega)]⟩
  rw [mergedByte, mergedByte, touches, same o inside]

theorem mergedByte_whole (bytes : List (Nat × Byte)) (k : Stacks) (line o : Nat) (inside : o < 64)
    (whole : wholeLine bytes = true) : mergedByte bytes k line o = reqByte bytes o := by
  have brings : (reqByte bytes o).isSome = true := List.all_eq_true.mp whole o (List.mem_range.mpr inside)
  obtain ⟨b, value⟩ := Option.isSome_iff_exists.mp brings
  rw [mergedByte, if_pos ((touchesHalf_iff _ _).mpr ⟨o, rfl, brings⟩), value]
  rfl

theorem lineWritten_nothing (line : Nat) (k : Stacks) (w : memWf k = true) : LineWritten line [] k k where
  wf := w
  poison := fun _ _ => Iff.rfl
  byte := fun a => by
    have untouched : ¬touchesHalf [] (a % 64 / 32) = true := fun touches => by
      obtain ⟨o, -, brings⟩ := (touchesHalf_iff _ _).mp touches
      exact absurd brings (by simp [reqByte])
    rw [mergedByte, if_neg untouched, Option.getD_none, ite_self]

/-- A write of a line that is free issues at once, as a whole or in part. -/
theorem writeReq_linesFree {s : State} {r : StkReq} (free : LinesFree s [r.line]) (sound : SoundReq r)
    (write : r.write = true) (w : memWf s.stk = true) :
    Rests s (writeReq 2 r noErrs s) ∧ LineWritten r.line r.bytes s.stk (writeReq 2 r noErrs s).stk := by
  obtain ⟨i, answers, issues, queue, reads⟩ := free.lines r.line List.mem_cons_self
  obtain ⟨room, room5⟩ := free.ports
  have idle := Holds.idle queue reads free.waiting
  by_cases empty : r.bytes.isEmpty = true
  · have none : r.bytes = [] := List.isEmpty_iff.mp empty
    rw [writeReq, if_pos empty, none]
    exact ⟨.refl s, lineWritten_nothing _ _ w⟩
  · by_cases whole : wholeLine r.bytes = true
    · have merge : (entered 2 r false s).merge = false := by simp [entered, queued, whole]
      obtain ⟨x, u, run, stands, b, entry⟩ := issueNow_alone idle 2 r room issues sound merge
      have held := stands.issue_write 0 x (by rw [entry]; exact write)
      have now : writeReq 2 r noErrs s = issueReq i 0 x u := by
        simp only [writeReq, empty, answers, whole, run, if_true]
        rfl
      rw [now]
      refine ⟨idle.rests held, lineWritten_storeLine (by rw [entry]; rfl) (fun o inside => ?_) held.cells w⟩
      rw [entry, reqByte_entered 2 r s b o write inside, mergedByte_whole _ _ _ _ inside whole]
    · obtain ⟨x, u, run, held, b, entry⟩ := partNow_free idle 2 r room room5 (by decide) issues answers sound write
        (by simpa using whole)
      have now : writeReq 2 r noErrs s = u := by
        simp only [writeReq, empty, answers, whole, run]
        rfl
      rw [now]
      refine ⟨idle.rests held, lineWritten_storeLine (by rw [entry]; rfl) (fun o inside => ?_) held.cells w⟩
      rw [reqByte_mergeWrite _ _ _ _ inside]
      refine mergedByte_congr _ _ _ _ _ inside fun n within => ?_
      rw [entry, reqByte_entered 2 r s b n write within]

end Sys2Proof.Machine
end

section
/-! PROOFS. BAR2 (chapter 15, R377, R382, R383; chapter 14, R349): what a transfer of several lines leaves in each byte,
and the accesses of the aperture. -/

namespace Sys2Proof.Machine

/-! ## What a transfer leaves in each byte (R349) -/

/-- `v` is what a transfer that brings the bytes `new` may leave at address `a`: the byte that it brings there; else the
old one where its block reads without error, or where it brings nothing to that block. -/
structure Transferred (k : Stacks) (new : Nat → Option Byte) (a : Nat) (v : Byte) : Prop where
  brought : ∀ b, new a = some b → v = b
  kept : new a = none → a / 32 ∉ k.poison → v = memByte k a
  apart : (∀ c, c / 32 = a / 32 → new c = none) → v = memByte k a

/-- A byte to which nothing is brought, and that stays. -/
theorem Transferred.same {k : Stacks} {new : Nat → Option Byte} {a : Nat} (nothing : new a = none) :
    Transferred k new a (memByte k a) := ⟨fun b h => (by rw [nothing] at h; cases h), fun _ _ => rfl, fun _ => rfl⟩

theorem LineWritten.transferred {line : Nat} {bytes : List (Nat × Byte)} {k l : Stacks} {new : Nat → Option Byte}
    (h : LineWritten line bytes k l) (brings : ∀ o, o < 64 → reqByte bytes o = new (64 * line + o)) {a : Nat}
    (here : a / 64 = line) : Transferred k new a (memByte l a) := by
  have own : reqByte bytes (a % 64) = new a := by
    rw [brings _ (by omega), ← here, Nat.div_add_mod]
  have place : 64 * line + a % 64 = a := by omega
  rw [h.byte a, if_pos here, mergedByte, own, place]
  by_cases touched : touchesHalf bytes (a % 64 / 32) = true
  · rw [if_pos touched, Option.getD_some]
    refine ⟨fun b value => by rw [value]; rfl, fun silent clean => ?_, fun silent => ?_⟩
    · rw [silent, cellView, if_neg clean]
      rfl
    · obtain ⟨o, half, brought⟩ := (touchesHalf_iff _ _).mp touched
      rw [brings o (by omega), silent _ (by omega)] at brought
      exact absurd brought (by decide)
  · rw [if_neg touched, Option.getD_none]
    refine .same (Option.eq_none_iff_forall_ne_some.mpr fun b value => touched ?_)
    exact (touchesHalf_iff _ _).mpr ⟨a % 64, rfl, by rw [own, value]; rfl⟩

/-! ## The bytes of a transfer -/

/-- The byte that a transfer from address `a0` brings to address `a`. -/
def delivered (a0 : Nat) (bytes : List (Option Byte)) (a : Nat) : Option Byte :=
  if a0 ≤ a then (bytes[a - a0]?).join else none

theorem delivered_eq_some (a0 : Nat) (bytes : List (Option Byte)) (a : Nat) (b : Byte) :
    delivered a0 bytes a = some b ↔ a0 ≤ a ∧ bytes[a - a0]? = some (some b) := by
  simp only [delivered]
  split <;> rename_i c <;> simp [c, Option.join_eq_some_iff]

theorem delivered_eq_none {a0 : Nat} {bytes : List (Option Byte)} {a : Nat}
    (beside : ∀ i b, bytes[i]? = some (some b) → a ≠ a0 + i) : delivered a0 bytes a = none := by
  refine Option.eq_none_iff_forall_ne_some.mpr fun b value => ?_
  obtain ⟨low, stands⟩ := (delivered_eq_some _ _ _ _).mp value
  exact beside _ b stands (by omega)

theorem reqByte_bytesIn (a0 : Nat) (bytes : List (Option Byte)) (line o : Nat) (inside : o < 64) :
    reqByte (bytesIn a0 bytes line) o = delivered a0 bytes (64 * line + o) := by
  have offers : bytesIn a0 bytes line = offered (fun o => delivered a0 bytes (64 * line + o)) (List.range 64) := by
    refine filterMap_congr_mem fun o _ => ?_
    simp only [delivered]
    split <;> rfl
  rw [offers, reqByte_offered, if_pos (List.mem_range.mpr inside)]

theorem mem_linesOf (a n line : Nat) (any : 0 < n) : line ∈ linesOf a n ↔ a / 64 ≤ line ∧ line ≤ (a + n - 1) / 64 := by
  rw [linesOf, if_neg (by omega)]
  simp only [List.mem_map, List.mem_range]
  constructor
  · rintro ⟨i, below, rfl⟩
    omega
  · rintro ⟨low, high⟩
    exact ⟨line - a / 64, by omega, by omega⟩

theorem linesOf_nodup (a n : Nat) : (linesOf a n).Nodup := by
  rw [linesOf]
  split
  · exact List.nodup_nil
  · exact List.Pairwise.map _ (fun _ _ other same => other (Nat.add_left_cancel same)) List.nodup_range

/-- The bytes of a transfer for one line, as they are written. -/
def sliceReq (r : Requester) (a : Nat) (bytes : List (Option Byte)) (line : Nat) : StkReq :=
  plainReq r line (bytesIn a bytes line) (BitVec.allOnes 56) false false

/-- The bytes of a transfer are written to lines, each once. -/
theorem each_sliceReq_linesFree (r : Requester) (a : Nat) (bytes : List (Option Byte)) (l : List Nat) (once : l.Nodup)
    (s : State) (free : LinesFree s l) (w : memWf s.stk = true) :
    let t := s.each l fun line => writeReq 2 (sliceReq r a bytes line) noErrs
    Rests s t ∧ ∀ c, (c / 64 ∉ l → memByte t.stk c = memByte s.stk c) ∧
      (c / 64 ∈ l → Transferred s.stk (delivered a bytes) c (memByte t.stk c)) := by
  induction l generalizing s with
  | nil => exact ⟨.refl s, fun c => ⟨fun _ => rfl, fun h => by cases h⟩⟩
  | cons line l ih =>
    obtain ⟨fresh, once⟩ := List.nodup_cons.mp once
    obtain ⟨rests, written⟩ := writeReq_linesFree (r := sliceReq r a bytes line)
      ((Rests.refl s).linesFree free (List.cons_subset_cons line (List.nil_subset l))) ⟨rfl, rfl, rfl, rfl⟩ rfl w
    obtain ⟨t, step⟩ : ∃ t, writeReq 2 (sliceReq r a bytes line) noErrs s = t := ⟨_, rfl⟩
    rw [step] at rests written
    obtain ⟨rests', outcome⟩ := ih once t (rests.linesFree free (List.subset_cons_self line l)) written.wf
    dsimp only
    rw [State.each_cons, step]
    refine ⟨rests.trans rests', fun c => ?_⟩
    obtain ⟨outside, inside⟩ := outcome c
    by_cases here : c / 64 = line
    · refine ⟨fun absent => absurd (here ▸ List.mem_cons_self) absent, fun _ => ?_⟩
      rw [outside (here ▸ fresh)]
      exact written.transferred (fun o => reqByte_bytesIn a bytes line o) here
    · have stays : memByte t.stk c = memByte s.stk c := (written.byte c).trans (if_neg here)
      have other : c / 32 / 2 ≠ line := by omega
      have marks : c / 32 ∈ t.stk.poison ↔ c / 32 ∈ s.stk.poison := written.poison _ other
      refine ⟨fun absent => ?_, fun present => ?_⟩
      · rw [outside fun h => absent (List.mem_cons_of_mem _ h), stays]
      · obtain ⟨brought, kept, apart⟩ := inside ((List.mem_cons.mp present).resolve_left here)
        exact ⟨brought, fun silent clean => by rw [kept silent (by rwa [marks]), stays],
          fun silent => by rw [apart silent, stays]⟩

theorem writeBytes_linesFree {s : State} (r : Requester) (a first : Nat) (bytes : List (Option Byte))
    (free : LinesFree s (linesOf a bytes.length)) (w : memWf s.stk = true) :
    let t := writeBytes 2 r a first bytes (fun _ => false) [] s
    Rests s t ∧ ∀ c, Transferred s.stk (delivered a bytes) c (memByte t.stk c) := by
  have loop : writeBytes 2 r a first bytes (fun _ => false) [] s = s.each (linesOf a bytes.length) fun line =>
      writeReq 2 (sliceReq r a bytes line) noErrs := by
    have sound (l : List (Nat × Byte)) (h : Nat) : (l.any fun x => x.1 / 32 == h && false) = false := by simp
    have clean (n : Nat) : errsAt [] n = noErrs := rfl
    simp only [writeBytes, sound, clean, sliceReq]
  obtain ⟨rests, outcome⟩ := each_sliceReq_linesFree r a bytes _ (linesOf_nodup a bytes.length) s free w
  dsimp only
  rw [loop]
  refine ⟨rests, fun c => ?_⟩
  obtain ⟨outside, inside⟩ := outcome c
  by_cases present : c / 64 ∈ linesOf a bytes.length
  · exact inside present
  · rw [outside present]
    refine .same (delivered_eq_none fun i b stands here => present ?_)
    obtain ⟨below, -⟩ := List.getElem?_eq_some_iff.mp stands
    exact (mem_linesOf _ _ _ (by omega)).mpr ⟨by omega, by omega⟩

/-! ## BAR2 requests -/

/-- A BAR2 request stands behind those that wait already. -/
def bar2Arrive (r : Bar2Req) (s : State) : State := s.modHost fun h => { h with bar2Wait := h.bar2Wait ++ [r] }

section
variable {s : State}

theorem bar2Access_open (off : BitVec 36) (op : Bar2Op) (reached : hostOpen s .host = true) :
    bar2Access off op s = bar2Serve (bar2Arrive { addr := bar2Addr s off, op := op } s) := by
  obtain ⟨link, up, -⟩ : s.host.linkUp = true ∧ pageUp s .host = true ∧ (!pageInReset s .host) = true := by
    simpa only [hostOpen, pageOpen, Bool.and_eq_true] using reached
  rw [bar2Access, up, link]
  rfl

theorem bar2Serve_unserved (r : Bar2Req) (unserved : memServes s = false) :
    bar2Serve (bar2Arrive r s) = memWake (bar2Arrive r s) := by
  have still : memServes (bar2Arrive r s) = false := unserved
  have waits : (bar2Arrive r s).host.bar2Wait.isEmpty = false := by simp [bar2Arrive]
  rw [bar2Serve, waits, still]
  rfl

/-- A request that waits alone and is carried out leaves nothing waiting. -/
theorem bar2Serve_served (r : Bar2Req) (served : memServes s = true) (empty : s.host.bar2Wait = []) {t : State}
    (done : bar2Do r (bar2Arrive r s) = some t) :
    bar2Serve (bar2Arrive r s) = t.modHost fun h => { h with bar2Wait := [] } := by
  have still : memServes (bar2Arrive r s) = true := served
  have alone : (bar2Arrive r s).host.bar2Wait = [r] := by simp [bar2Arrive, empty]
  simp only [bar2Serve, alone, still, List.isEmpty_cons, Bool.not_true, Bool.false_eq_true, if_false, bar2Pass, done]

theorem memWake_spec (s : State) :
    (memWake s).host = s.host ∧ (memWake s).stk.mem = s.stk.mem ∧ (memWake s).out = s.out ∧
      (s.stk.sref = true → (memWake s).stk.srefExit = true) := by
  by_cases asleep : s.stk.sref = true
  · rw [memWake, if_pos asleep]
    exact ⟨rfl, rfl, rfl, fun _ => rfl⟩
  · rw [memWake, if_neg asleep]
    exact ⟨rfl, rfl, rfl, fun h => absurd h asleep⟩

theorem memServes_of_memoryFree {a n : Nat} (any : 0 < n) (free : MemoryFree s a n) : memServes s = true := by
  obtain ⟨i, -, issues, -⟩ := free.lines (a / 64) ((mem_linesOf _ _ _ any).mpr ⟨Nat.le_refl _, by omega⟩)
  exact memServes_of_canIssue issues

theorem bar2Arrive_rests (r : Bar2Req) : Rests s (bar2Arrive r s) := ⟨rfl, fun _ => ⟨rfl, rfl⟩, rfl⟩

theorem bar2Arrive_linesFree {a n : Nat} (r : Bar2Req) (free : MemoryFree s a n) :
    LinesFree (bar2Arrive r s) (linesOf a n) :=
  (bar2Arrive_rests r).linesFree ⟨free.lines, free.ports, free.waits.1⟩ (List.Subset.refl _)

/-! ## The clauses of the obligation -/

/-- HL_BAR2_BASE takes eleven bits (R383). -/
theorem bar2BaseWrite_open (w : Word) (reached : hostOpen s .host = true) :
    exec (.bar2BaseWrite w) s = .next (s.modHost fun h => { h with bar2Base := w.extractLsb' 0 11 }) := by
  obtain ⟨link, isOpen⟩ : s.host.linkUp = true ∧ pageOpen s .host = true := by
    simpa only [hostOpen, Bool.and_eq_true] using reached
  have carried := (request_spec .host 0x048 .write (bar2Base w) s).1 link isOpen
  exact congrArg Host.Outcome.next (carried.trans (withVia_of_eq _ _ _ rfl rfl))

theorem exec_bar2Access (off : BitVec 36) (op : Bar2Op) (wf : wfBar2 op = true) :
    exec (.bar2Access off op) s = .next (bar2Access off op s) := by
  show execBar2Access off op s = _
  rw [execBar2Access, if_pos wf]

/-- A BAR2 read of free lines answers the bytes of DRAM as they stand. -/
theorem bar2Read_memoryFree (off : BitVec 36) (len : Nat) (reached : hostOpen s .host = true) (any : 0 < len)
    (free : MemoryFree s (bar2Addr s off) len) (fresh : ∀ line, returnedView s.stk .bar2 line = none) :
    let t := bar2Access off (.read len [] []) s
    t.service = s.service ∧ t.stk.mem = s.stk.mem ∧
      t.out.bar2 = sentBytes (cellsFrom s.stk (bar2Addr s off) len) ∧
      t.out.bar2Poisoned = (cellsFrom s.stk (bar2Addr s off) len).any Option.isNone := by
  obtain ⟨r, req⟩ : ∃ r : Bar2Req, r = { addr := bar2Addr s off, op := .read len [] [] } := ⟨_, rfl⟩
  obtain ⟨u, run, rests, mem, -⟩ := egressRead_linesFree 0 (bar2Addr s off) any (bar2Arrive_linesFree r free) fresh
  have done : bar2Do r (bar2Arrive r s) = some (u.modOut fun o => { o with
      bar2 := sentBytes (cellsFrom s.stk (bar2Addr s off) len)
      bar2Poisoned := (cellsFrom s.stk (bar2Addr s off) len).any Option.isNone }) := by
    rw [req] at run ⊢
    simp only [bar2Do, run, Option.map_some]
    rfl
  dsimp only
  rw [bar2Access_open off _ reached, ← req, bar2Serve_served r (memServes_of_memoryFree any free) free.waits.2 done]
  exact ⟨rests.service, mem, rfl, rfl⟩

/-- A BAR2 write of free lines reaches DRAM. -/
theorem bar2Write_memoryFree (off : BitVec 36) (bytes : List (Option Byte)) (reached : hostOpen s .host = true)
    (any : 0 < bytes.length) (free : MemoryFree s (bar2Addr s off) bytes.length) (w : memWf s.stk = true) :
    let t := bar2Access off (.write bytes false []) s
    t.service = s.service ∧ ∀ a, Transferred s.stk (delivered (bar2Addr s off) bytes) a (memByte t.stk a) := by
  obtain ⟨r, req⟩ : ∃ r : Bar2Req, r = { addr := bar2Addr s off, op := .write bytes false [] } := ⟨_, rfl⟩
  obtain ⟨rests, outcome⟩ := writeBytes_linesFree .bar2 (bar2Addr s off) (bar2Addr s off / 64) bytes
    (bar2Arrive_linesFree r free) w
  have done : bar2Do r (bar2Arrive r s) = some
      (writeBytes 2 .bar2 (bar2Addr s off) (bar2Addr s off / 64) bytes (fun _ => false) [] (bar2Arrive r s)) := by
    rw [req]
    rfl
  dsimp only
  rw [bar2Access_open off _ reached, ← req, bar2Serve_served r (memServes_of_memoryFree any free) free.waits.2 done]
  exact ⟨rests.service, outcome⟩

/-- A read is poisoned where a block that it touches is. -/
theorem cellsFrom_any_isNone (k : Stacks) (a n : Nat) :
    (cellsFrom k a n).any Option.isNone = true ↔ ∃ i, i < n ∧ (a + i) / 32 ∈ k.poison := by
  have poisoned (c : Nat) : (cellView k c).isNone = true ↔ c / 32 ∈ k.poison := by
    rw [cellView]
    split <;> simp [*]
  simp only [cellsFrom, List.any_map, List.any_eq_true, List.mem_range, Function.comp_apply, poisoned]

theorem sentBytes_getElem? (k : Stacks) (a n i : Nat) (inside : i < n) (clean : (a + i) / 32 ∉ k.poison) :
    (sentBytes (cellsFrom k a n))[i]? = some (memByte k (a + i)) := by
  rw [sentBytes, List.getElem?_map, cellsFrom_getElem? k a n i inside, cellView, if_neg clean]
  rfl

end

/-! ## The obligation -/

/-- Settles O49: a read passes on each line as DRAM holds it (`bar2Read_memoryFree`), and a write leaves in each byte
what it brings or what stood there (`bar2Write_memoryFree`). -/
theorem bar2Accesses : Obligations.Bar2Accesses := by
  unfold Obligations.Bar2Accesses
  intro s reached
  refine ⟨fun w => ⟨_, bar2BaseWrite_open w reached, rfl, rfl⟩, fun off op wf unserved => ?_,
    fun off len wf free fresh => ?_, fun off bytes canonical wf free => ?_⟩
  · obtain ⟨host, mem, out, wakes⟩ := memWake_spec (bar2Arrive { addr := bar2Addr s off, op := op } s)
    rw [← bar2Serve_unserved _ unserved, ← bar2Access_open off op reached] at host mem out wakes
    exact ⟨_, exec_bar2Access off op wf, host, mem, out, wakes⟩
  · have any : 0 < len := by
      simp only [wfBar2, Bool.and_eq_true, decide_eq_true_eq] at wf
      obtain ⟨⟨⟨low, -⟩, -⟩, -⟩ := wf
      exact low
    obtain ⟨service, mem, data, poisoned⟩ := bar2Read_memoryFree off len reached any free fresh
    refine ⟨_, exec_bar2Access off _ wf, mem, ?_, congrArg Service.chans service, congrArg Service.bays service, ?_,
      fun i inside clean => ?_⟩
    · rw [data, sentBytes, List.length_map, cellsFrom_length]
    · rw [poisoned, cellsFrom_any_isNone]
    · rw [data, sentBytes_getElem? _ _ _ _ inside clean]
  · have any : 0 < bytes.length := by
      simp only [wfBar2, Bool.and_eq_true, decide_eq_true_eq] at wf
      obtain ⟨⟨low, -⟩, -⟩ := wf
      exact low
    obtain ⟨service, outcome⟩ := bar2Write_memoryFree off bytes reached any free canonical.mem
    refine ⟨_, exec_bar2Access off _ wf, congrArg Service.chans service, congrArg Service.bays service,
      fun i b value => (outcome _).brought b ?_, fun a beside => (outcome a).apart fun c block => ?_,
      fun a clean unwritten => (outcome a).kept ?_ clean⟩
    · rw [delivered_eq_some, Nat.add_sub_cancel_left]
      exact ⟨Nat.le_add_right _ _, value⟩
    · refine delivered_eq_none fun i b stands here => ?_
      obtain ⟨below, -⟩ := List.getElem?_eq_some_iff.mp stands
      omega
    · exact delivered_eq_none unwritten

end Sys2Proof.Machine
end

section
/-! PROOFS. The fault log (chapter 17, R424 to R428): the entry that the log takes, the entry that it overwrites, and
the writes of FLT_ACK and FLT_CTL. -/

namespace Sys2Proof.Machine

/-! ## An entry in its slot (R424, R427) -/

/-- Entry number `m.fltSeq`, and its slot. -/
def numbered (x : LogEntry) (m : Mgmt) : LogEntry := { x with seq := m.fltSeq.setWidth 16 }
def nextSlot (m : Mgmt) : Fin 256 := ⟨m.fltSeq.toNat % 256, Nat.mod_lt _ (by decide)⟩

section
variable (x : LogEntry) (m : Mgmt)

theorem logPut_log_same : (logPut x m).log[nextSlot m] = numbered x m := vset_get ..

theorem logPut_log_ne (k : Fin 256) (other : k.val ≠ m.fltSeq.toNat % 256) : (logPut x m).log[k] = m.log[k] :=
  vset_get_ne _ (nextSlot m) k _ (Fin.ne_of_val_ne other)

theorem logPut_first_of_lasting (lasting : x.cls = 1) (empty : m.firstValid = false) :
    (logPut x m).firstValid = true ∧ (logPut x m).first = numbered x m := by
  simp [logPut, numbered, lasting, empty]

theorem logPut_first_kept (valid : m.firstValid = true) : (logPut x m).first = m.first := by
  simp [logPut, valid]

end

/-! ## The entry that the next one overwrites (R426) -/

/-- Management when the entry that the next one overwrites has been counted. -/
def lostCounted (m : Mgmt) : Mgmt := { m with fltLost := if logFull m then m.fltLost + 1 else m.fltLost }

/-- The state before an entry is put in its slot: an unread entry that stands there has been reported as lost. -/
def lostReported (s : State) : State :=
  if logFull s.mgmt then setEvt (s.modMgmt fun m => { m with fltLost := m.fltLost + 1 }) .device evtLogLost else s

section
variable (x : LogEntry) (s : State)

theorem logTake_eq :
    logTake x s = setEvt ((lostReported s).modMgmt (logPut x)) .device (classEvt x.cls) := rfl

theorem lostReported_frame :
    (lostReported s).mgmt = lostCounted s.mgmt ∧ (lostReported s).power = s.power ∧
      (lostReported s).chans = s.chans ∧ (lostReported s).bays = s.bays := by
  by_cases full : logFull s.mgmt = true
  · simp [lostReported, lostCounted, if_pos full]
  · simp [lostReported, lostCounted, if_neg full]

theorem lostReported_evt (up : pageUp s .device = true) (full : logFull s.mgmt = true) :
    evtOn (lostReported s) .device evtLogLost := by
  rw [lostReported, if_pos full]
  exact setEvt_on _ .device evtLogLost (by decide) up

/-! ## The log takes an entry -/

theorem logTake_frame :
    (logTake x s).mgmt = logPut x (lostCounted s.mgmt) ∧ (logTake x s).chans = s.chans ∧
      (logTake x s).bays = s.bays := by
  obtain ⟨mgmt, -, chans, bays⟩ := lostReported_frame s
  simp [logTake_eq, mgmt, chans, bays]

theorem classEvt_lt (cls : BitVec 2) : classEvt cls < 32 := by
  unfold classEvt
  split
  · decide
  · split <;> decide

theorem logTake_classEvt (up : pageUp s .device = true) : evtOn (logTake x s) .device (classEvt x.cls) := by
  obtain ⟨-, power, -, -⟩ := lostReported_frame s
  have still : pageUp ((lostReported s).modMgmt (logPut x)) .device = true := by
    simpa only [pageUp, domUp, State.modMgmt_power, power] using up
  rw [logTake_eq]
  exact setEvt_on _ .device _ (classEvt_lt x.cls) still

/-- LOG_LOST, set before the entry is put, is not cleared by the event of its class. -/
theorem logTake_logLost (up : pageUp s .device = true) (full : logFull s.mgmt = true) :
    evtOn (logTake x s) .device evtLogLost := by
  have rise : EventsRise (lostReported s).pages (logTake x s).pages :=
    EventsRise.setEvt (s := (lostReported s).modMgmt (logPut x)) (.refl _) .device (classEvt x.cls)
  exact rise.evtOn (lostReported_evt s up full)

end

/-! ## The clauses of the obligation -/

section
variable {s : State}

/-- The state in which a detection no longer waits for the log. -/
def taken (x : Nat × LogEntry) (s : State) : State := s.modMgmt fun m => { m with detected := dropFirst x m.detected }

theorem faultLogEntry_takes {x : Nat × LogEntry} (on : s.power.powered = true)
    (next : logNext s.mgmt.detected = some x) (earlier : x.1 < s.tick) :
    exec .faultLogEntry s = .next (logTake x.2 (taken x s)) := by
  have takes : (s.power.powered && (after s x.1 || !s.locked)) = true := by simp [on, after, earlier]
  have entry : faultLogEntry s = logTake x.2 (taken x s) := by
    simp only [faultLogEntry, next, takes, if_true, taken]
  exact congrArg Host.Outcome.next entry

/-- A host write that changes management alone, where its page is open. -/
theorem request_modMgmt (p : Page) (off : Nat) (f : Mgmt → Mgmt) (reached : hostOpen s p = true) :
    request p off .write (fun s => s.modMgmt f) s = s.modMgmt f := by
  obtain ⟨link, isOpen⟩ : s.host.linkUp = true ∧ pageOpen s p = true := by
    simpa only [hostOpen, Bool.and_eq_true] using reached
  exact ((request_spec p off .write _ s).1 link isOpen).trans (withVia_of_eq _ _ _ rfl rfl)

/-- Management after a write of FLT_ACK. -/
def acked (w : Word) (m : Mgmt) : Mgmt := { m with fltAck := if (m.fltSeq - w).toNat ≤ 256 then w else m.fltAck }

theorem fltAck_eq (w : Word) : fltAck w = fun s => s.modMgmt (acked w) := by
  funext s
  by_cases inLog : (s.mgmt.fltSeq - w).toNat ≤ 256
  · simp only [fltAck, State.modMgmt, acked, if_pos inLog]
  · simp only [fltAck, State.modMgmt, acked, if_neg inLog]

theorem fltAckWrite_open (w : Word) (reached : hostOpen s .device = true) :
    exec (.fltAckWrite w) s = .next (s.modMgmt (acked w)) := by
  have carried : request .device 0x084 .write (fltAck w) s = s.modMgmt (acked w) := by
    rw [fltAck_eq]
    exact request_modMgmt .device 0x084 (acked w) reached
  exact congrArg Host.Outcome.next carried

theorem fltRearm_open (reached : hostOpen s .device = true) :
    exec .fltRearm s = .next (s.modMgmt fun m => { m with firstValid := false }) :=
  congrArg Host.Outcome.next (request_modMgmt .device 0x098 _ reached)

end

/-! ## The obligation -/

/-- Settles O55: the log's management is `logPut` after `lostCounted` (`logTake_frame`), and the two events that its
step may set both stand after it (`logTake_classEvt`, `logTake_logLost`). -/
theorem faultLogTakesEntries : Obligations.FaultLogTakesEntries := by
  unfold Obligations.FaultLogTakesEntries
  intro s on up
  refine ⟨fun x next earlier => ⟨_, faultLogEntry_takes on next earlier, ?_⟩, fun reached =>
    ⟨fun w => ⟨_, fltAckWrite_open w reached, rfl, rfl⟩, _, fltRearm_open reached, rfl⟩⟩
  obtain ⟨mgmt, chans, bays⟩ := logTake_frame x.2 (taken x s)
  rw [mgmt]
  refine ⟨rfl, logPut_log_same _ _, logPut_log_ne _ _, rfl, logTake_classEvt x.2 (taken x s) up, rfl, rfl, rfl,
    logPut_first_of_lasting _ _, logPut_first_kept _ _, fun room => ?_, fun unread => ⟨?_, ?_⟩, chans, bays⟩
  · have notFull : logFull s.mgmt = false := decide_eq_false (Nat.not_le.mpr room)
    exact if_neg (Bool.eq_false_iff.mp notFull)
  · exact if_pos (decide_eq_true unread)
  · exact logTake_logLost x.2 (taken x s) up (decide_eq_true unread)

end Sys2Proof.Machine
end
